-- ==== Sys2Proof/Word.lean ====
section
/-!
DEFINITION. The byte of PTE-CORE (spec/00_scope.md R10: unsigned, 8 bits, bit 7 the most significant) and the byte sequence (R11).
-/

namespace Sys2Proof

/-- A byte (R10). -/
abbrev Byte := BitVec 8

/-- A RawFrame: an owned byte buffer that leaves the assembler whole (R18, R50). -/
abbrev RawFrame := List Byte

end Sys2Proof
end

