-- ==== Sys2Proof/Syntax.lean ====
section
/-!
DEFINITION. The operand values of PTE-CORE's operations and the operations themselves: one constructor of `Instr` for each row of spec/opcode_table.json.
-/

namespace Sys2Proof

/-- The supported telegram kinds (spec/10_state.md R34, spec/30_encoding.md R79). -/
inductive TelegramKind where
  | rps
  | oneByte
  | fourByte
  deriving DecidableEq, Repr

/-- What PARSE_ENVELOPE produces (R33). `trailer` is the frame's last byte (spec/90_conflicts.md C8). -/
structure Envelope where
  dataLength     : BitVec 16
  optionalLength : Byte
  packetType     : Byte
  payload        : List Byte
  optional       : List Byte
  trailer        : Byte
  deriving DecidableEq, Repr

/-- What PARSE_TELEGRAM produces (R34). `signalStrengthDbm` is a signed 16-bit value (R7). -/
structure Telegram where
  addressControl    : BitVec 3
  extHeader         : Option Byte
  extKind           : Option Byte
  originatorId      : List Byte
  destinationId     : Option (List Byte)
  telegramKind      : TelegramKind
  data              : List Byte
  subtelegramCount  : Byte
  signalStrengthDbm : BitVec 16
  deriving DecidableEq, Repr

/-- The labels of the rocker profile, in the order the rule tests them (R35, R225). -/
inductive RockerLabel where
  | bi
  | bo
  | ai
  | ao
  deriving DecidableEq, Repr

/-- The operations and field values of spec/opcode_table.json, one constructor per row (R70).
The `asm…` operations take the byte their step removes from BYTE_IN (R120). The header-byte rows
take the header byte `h` and the bytes `rest` that the telegram parser's cursor has not read yet
at the point where the row's rule acts. The frame-byte and data-byte rows take the byte, unless
the row fixes all of it. -/
inductive Instr where
  /-- CRC8 (R101). -/
  | crc8 (bs : List Byte)
  /-- VERIFY (R102). -/
  | verify (bs : List Byte) (expected : Byte)
  /-- ASM_WAITSYNC (R121). -/
  | asmWaitSync (b : Byte)
  /-- ASM_LENHI (R122). -/
  | asmLenHi (b : Byte)
  /-- ASM_LENLO (R123). -/
  | asmLenLo (b : Byte)
  /-- ASM_OPTLEN (R124). -/
  | asmOptLen (b : Byte)
  /-- ASM_BODY (R125). -/
  | asmBody (b : Byte)
  /-- PARSE_ENVELOPE (R150). -/
  | parseEnvelope (frame : RawFrame)
  /-- PARSE_TELEGRAM (R180). -/
  | parseTelegram (envelope : Envelope)
  /-- DECODE_10_03 (R221). -/
  | decode1003 (d : List Byte)
  /-- DECODE_02_05 (R222). -/
  | decode0205 (d : List Byte)
  /-- DECODE_04_01 (R223). -/
  | decode0401 (d : List Byte)
  /-- DECODE_00_01 (R224). -/
  | decode0001 (d : List Byte)
  /-- DECODE_02_04 (R225). -/
  | decode0204 (d : List Byte)
  /-- DECODE (R220). -/
  | decode (pid : String) (telegram : Telegram)
  /-- NORMALIZE_ID (R227). -/
  | normalizeId (ident : List Byte)
  /-- DIRECTORY_KEY (R228). -/
  | directoryKey (ident : List Byte)
  /-- DISPATCH (R229). -/
  | dispatch (telegram : Telegram)
  /-- PIPE_STEP (R240). -/
  | pipeStep
  /-- SYNC: frame byte 0 is 0x55 (R74). -/
  | sync
  /-- SYNC_BAD: frame byte 0 is another value (R152). -/
  | syncBad (b : Byte)
  /-- PT_RADIO: frame byte 4 is 0x0A (R75). -/
  | ptRadio
  /-- PT_OTHER: frame byte 4 is another value (R155). -/
  | ptOther (b : Byte)
  /-- AC_000: header[7:5] is 0b000 (R78). `rest` begins at the originator. -/
  | ac000 (h : Byte) (rest : List Byte)
  /-- AC_001: header[7:5] is 0b001 (R78). `rest` begins at the originator. -/
  | ac001 (h : Byte) (rest : List Byte)
  /-- AC_010: header[7:5] is 0b010 (R78). `rest` begins at the originator. -/
  | ac010 (h : Byte) (rest : List Byte)
  /-- AC_011: header[7:5] is 0b011 (R78). `rest` begins at the originator. -/
  | ac011 (h : Byte) (rest : List Byte)
  /-- AC_RESERVED: header[7:5] is 0b100 to 0b111 (R185). -/
  | acReserved (h : Byte) (rest : List Byte)
  /-- XH_ABSENT: header[4] is 0 (R80). `rest` begins after the header byte. -/
  | xhAbsent (h : Byte) (rest : List Byte)
  /-- XH_PRESENT: header[4] is 1 (R183). `rest` begins after the header byte. -/
  | xhPresent (h : Byte) (rest : List Byte)
  /-- KIND_RPS: header[3:0] is 0 (R79). `rest` begins at the data. -/
  | kindRps (h : Byte) (rest : List Byte)
  /-- KIND_ONEBYTE: header[3:0] is 1 (R79). `rest` begins at the data. -/
  | kindOneByte (h : Byte) (rest : List Byte)
  /-- KIND_FOURBYTE: header[3:0] is 2 (R79). `rest` begins at the data. -/
  | kindFourByte (h : Byte) (rest : List Byte)
  /-- KIND_RESERVED: header[3:0] is 3 to 14 (R187). -/
  | kindReserved (h : Byte) (rest : List Byte)
  /-- KIND_EXT: header[3:0] is 15 (R196). `rest` begins at the extended-kind byte. -/
  | kindExt (h : Byte) (rest : List Byte)
  /-- CONTACT_OPEN: data byte 0 of profile 00-01 is 0x08 (R224). -/
  | contactOpen
  /-- CONTACT_CLOSED: data byte 0 of profile 00-01 is another value (R224). -/
  | contactClosed (b : Byte)
  /-- ROCKER_BI: data byte 0 of profile 02-04 has the bits 0x88 (R225). -/
  | rockerBi (b : Byte)
  /-- ROCKER_BO: data byte 0 of profile 02-04 has the bits 0x84 (R225). -/
  | rockerBo (b : Byte)
  /-- ROCKER_AI: data byte 0 of profile 02-04 has the bits 0x82 (R225). -/
  | rockerAi (b : Byte)
  /-- ROCKER_AO: data byte 0 of profile 02-04 has the bits 0x81 (R225). -/
  | rockerAo (b : Byte)
  deriving DecidableEq, Repr

/-- Where a transaction that is no step of an agent is read: the ports of R72, the operations the
table calls internal, and the fields whose values the table lists (notes/assumptions/4.md). -/
inductive CallSlot where
  | crc8
  | verify
  | parseEnvelope
  | parseTelegram
  | decode
  | profile
  | normalizeId
  | directoryKey
  | dispatch
  | frameByte0
  | frameByte4
  | headerAddress
  | headerExt
  | headerKind
  | contactCode
  | rockerCode (label : RockerLabel)
  deriving DecidableEq, Repr

/-- What selects an operation (R71): the assembler's state register, the PIPE agent, or a call. -/
inductive Slot where
  | asmState
  | pipeAgent
  | call (c : CallSlot)
  deriving DecidableEq, Repr

/-- One encoded operation: its slot, its text operand (a profile id, else empty) and its operand
bytes. The spec gives no bit pattern that names an operation (R71), so the form is the model's
(notes/assumptions/4.md). -/
structure Txn where
  slot  : Slot
  text  : String
  bytes : List Byte
  deriving DecidableEq, Repr

end Sys2Proof
end

