-- ==== Sys2Proof/WellFormed.lean ====
section
/-!
DEFINITION. Which operations are well formed: the operand shapes of the rules and of spec/opcode_table.json.
-/

namespace Sys2Proof

/-- The data width `DN` of a kind (spec/30_encoding.md R79, spec/10_state.md R34). -/
def TelegramKind.dataLength : TelegramKind → Nat
  | .rps => 1
  | .oneByte => 1
  | .fourByte => 4

/-- The widths of an `Envelope` (R33): each section is as long as its length field says. -/
def Envelope.wf (e : Envelope) : Bool :=
  e.payload.length == e.dataLength.toNat && e.optional.length == e.optionalLength.toNat

/-- The field shapes of a `Telegram` (R34). -/
def Telegram.wf (t : Telegram) : Bool :=
  decide (t.addressControl.toNat ≤ 3)
    && (t.originatorId.length == 3 || t.originatorId.length == 4 || t.originatorId.length == 6)
    && (match t.destinationId with
        | none => true
        | some d => d.length == 4)
    && t.data.length == t.telegramKind.dataLength
    && decide ((-t.signalStrengthDbm).toNat ≤ 255)

/-- A row's mask and match, as spec/opcode_table.json gives them. -/
def matchesRow (mask pattern b : Byte) : Bool := b &&& mask == pattern

/-- Well-formed operations: each operand in the range its row and its rule give. An operation on a
byte sequence takes every sequence: CRC8 is total (R101); for the ids of R227 and R228 see
notes/assumptions/23.md. -/
def Instr.wf : Instr → Bool
  | .crc8 _ => true
  | .verify _ _ => true
  | .asmWaitSync _ => true
  | .asmLenHi _ => true
  | .asmLenLo _ => true
  | .asmOptLen _ => true
  | .asmBody _ => true
  | .parseEnvelope _ => true
  | .parseTelegram e => e.wf
  | .decode1003 _ => true
  | .decode0205 _ => true
  | .decode0401 _ => true
  | .decode0001 _ => true
  | .decode0204 _ => true
  | .decode _ t => t.wf
  | .normalizeId _ => true
  | .directoryKey _ => true
  | .dispatch t => t.wf
  | .pipeStep => true
  | .sync => true
  | .syncBad b => !matchesRow 0xFF 0x55 b
  | .ptRadio => true
  | .ptOther b => !matchesRow 0xFF 0x0A b
  | .ac000 h _ => matchesRow 0xE0 0x00 h
  | .ac001 h _ => matchesRow 0xE0 0x20 h
  | .ac010 h _ => matchesRow 0xE0 0x40 h
  | .ac011 h _ => matchesRow 0xE0 0x60 h
  | .acReserved h _ => matchesRow 0x80 0x80 h
  | .xhAbsent h _ => matchesRow 0x10 0x00 h
  | .xhPresent h _ => matchesRow 0x10 0x10 h
  | .kindRps h _ => matchesRow 0x0F 0x00 h
  | .kindOneByte h _ => matchesRow 0x0F 0x01 h
  | .kindFourByte h _ => matchesRow 0x0F 0x02 h
  | .kindReserved h _ => decide (0x03 ≤ h &&& 0x0F) && decide (h &&& 0x0F ≤ 0x0E)
  | .kindExt h _ => matchesRow 0x0F 0x0F h
  | .contactOpen => true
  | .contactClosed b => !matchesRow 0xFF 0x08 b
  | .rockerBi b => matchesRow 0x88 0x88 b
  | .rockerBo b => matchesRow 0x84 0x84 b
  | .rockerAi b => matchesRow 0x82 0x82 b
  | .rockerAo b => matchesRow 0x81 0x81 b

end Sys2Proof
end

