-- ==== Sys2Proof/Decode.lean ====
section
/-!
DEFINITION. The bit fields of the telegram header byte (spec/30_encoding.md R77), decoding a transaction to an operation (R71 and the rows of spec/opcode_table.json), and the encoder. The byte form of operands that are records is the model's (notes/assumptions/4.md).
-/

namespace Sys2Proof

/-- Why a transaction names no operation. -/
inductive DecodeError where
  /-- A text operand where the operation takes none. -/
  | unexpectedText
  /-- Fewer operand bytes than the operation takes. -/
  | missingOperand
  /-- More operand bytes than the operation takes. -/
  | extraOperand
  /-- A value of asm_st that is never held (R23, I13). -/
  | asmStateNeverHeld
  /-- A profile id that selects no row of the table (R85). -/
  | noSuchProfile
  /-- Operand bytes that are no Envelope (R33). -/
  | notAnEnvelope
  /-- Operand bytes that are no Telegram (R34). -/
  | notATelegram
  /-- A data byte without the bits of the rocker code asked for (R85). -/
  | codeNotMatched
  deriving DecidableEq, Repr

/-! ### Fields -/

/-- `address_control`, header[7:5] (R77). -/
def headerAddressControl (h : Byte) : BitVec 3 := h.extractLsb' 5 3

/-- `ext_header_flag`, header[4] (R77). -/
def headerExtFlag (h : Byte) : Bool := h.getLsbD 4

/-- `kind_sel`, header[3:0] (R77). -/
def headerKindSel (h : Byte) : BitVec 4 := h.extractLsb' 0 4

/-- Two bytes as a big-endian 16-bit value (R12, R56). -/
def be16 (hi lo : Byte) : BitVec 16 := (hi.zeroExtend 16 <<< 8) ||| lo.zeroExtend 16

/-- The signal strength of a raw signal byte (R82). -/
def signalOfRaw (raw : Byte) : BitVec 16 := -(raw.zeroExtend 16)

/-- The mask, and code, of a rocker label (R85). -/
def RockerLabel.mask : RockerLabel → Byte
  | .bi => 0b10001000
  | .bo => 0b10000100
  | .ai => 0b10000010
  | .ao => 0b10000001

/-! ### Operands -/

/-- An operand of exactly one byte. -/
def readSingle : List Byte → Except DecodeError Byte
  | [] => .error .missingOperand
  | [b] => .ok b
  | _ :: _ :: _ => .error .extraOperand

/-- A first byte and the bytes after it. -/
def readFirst : List Byte → Except DecodeError (Byte × List Byte)
  | [] => .error .missingOperand
  | b :: rest => .ok (b, rest)

/-- The first `n` bytes, where there are so many, and the bytes after them. -/
def splitOff (n : Nat) (bs : List Byte) : Option (List Byte × List Byte) :=
  if n ≤ bs.length then some (bs.take n, bs.drop n) else none

/-- A byte that may be absent: 00, or 01 and the byte. -/
def readOptByte : List Byte → Option (Option Byte × List Byte)
  | [] => none
  | flag :: rest =>
    if flag = 0x00 then some (none, rest)
    else if flag = 0x01 then
      match rest with
      | [] => none
      | b :: rest => some (some b, rest)
    else none

/-- A destination id that may be absent: 00, or 01 and its 4 bytes. -/
def readOptDestination : List Byte → Option (Option (List Byte) × List Byte)
  | [] => none
  | flag :: rest =>
    if flag = 0x00 then some (none, rest)
    else if flag = 0x01 then (splitOff 4 rest).map fun (d, rest) => (some d, rest)
    else none

/-- A telegram kind by its `kind_sel` value (R79). -/
def readKind (b : Byte) : Option TelegramKind :=
  if b = 0x00 then some .rps
  else if b = 0x01 then some .oneByte
  else if b = 0x02 then some .fourByte
  else none

/-- The Envelope of an operand: data_length (big-endian), optional_length, packet_type, payload,
optional, trailer. -/
def readEnvelope : List Byte → Option Envelope
  | hi :: lo :: ol :: pt :: rest => do
    let (payload, rest) ← splitOff (be16 hi lo).toNat rest
    let (opt, rest) ← splitOff ol.toNat rest
    match rest with
    | [trailer] => some ⟨be16 hi lo, ol, pt, payload, opt, trailer⟩
    | _ => none
  | _ => none

/-- The Telegram of an operand: its fields in the order of R34. -/
def readTelegram : List Byte → Option Telegram
  | [] => none
  | ac :: rest => do
    let (extHeader, rest) ← readOptByte rest
    let (extKind, rest) ← readOptByte rest
    match rest with
    | [] => none
    | ow :: rest => do
      let (originator, rest) ← splitOff ow.toNat rest
      let (destination, rest) ← readOptDestination rest
      match rest with
      | [] => none
      | ks :: rest => do
        let kind ← readKind ks
        let (data, rest) ← splitOff kind.dataLength rest
        match rest with
        | [count, raw] =>
          let t : Telegram :=
            ⟨ac.setWidth 3, extHeader, extKind, originator, destination, kind, data, count, signalOfRaw raw⟩
          if ac.toNat ≤ 7 ∧ t.wf = true then some t else none
        | _ => none

/-! ### Decoding -/

/-- The assembler operation that `asm_st` selects (R71). -/
def decodeAsm (code b : Byte) : Except DecodeError Instr :=
  if code = 0x00 then .ok (.asmWaitSync b)
  else if code = 0x01 then .ok (.asmLenHi b)
  else if code = 0x02 then .ok (.asmLenLo b)
  else if code = 0x03 then .ok (.asmOptLen b)
  else if code = 0x04 then .ok (.asmBody b)
  else .error .asmStateNeverHeld

/-- The decoder operation that a profile id selects by exact string match (R85). -/
def decodeProfile (pid : String) (d : List Byte) : Except DecodeError Instr :=
  if pid = "10-03" then .ok (.decode1003 d)
  else if pid = "02-05" then .ok (.decode0205 d)
  else if pid = "04-01" then .ok (.decode0401 d)
  else if pid = "00-01" then .ok (.decode0001 d)
  else if pid = "02-04" then .ok (.decode0204 d)
  else .error .noSuchProfile

/-- The address-control row of a header byte (R78, R83). -/
def decodeHeaderAddress (h : Byte) (rest : List Byte) : Instr :=
  if headerAddressControl h = 0b000 then .ac000 h rest
  else if headerAddressControl h = 0b001 then .ac001 h rest
  else if headerAddressControl h = 0b010 then .ac010 h rest
  else if headerAddressControl h = 0b011 then .ac011 h rest
  else .acReserved h rest

/-- The extended-header row of a header byte (R80). -/
def decodeHeaderExt (h : Byte) (rest : List Byte) : Instr :=
  if headerExtFlag h then .xhPresent h rest else .xhAbsent h rest

/-- The kind row of a header byte (R79, R83). -/
def decodeHeaderKind (h : Byte) (rest : List Byte) : Instr :=
  if headerKindSel h = 0 then .kindRps h rest
  else if headerKindSel h = 1 then .kindOneByte h rest
  else if headerKindSel h = 2 then .kindFourByte h rest
  else if headerKindSel h = 15 then .kindExt h rest
  else .kindReserved h rest

/-- The rocker row of a label, on a data byte that has the label's bits (R85). -/
def decodeRocker (label : RockerLabel) (b : Byte) : Except DecodeError Instr :=
  if b &&& label.mask = label.mask then
    match label with
    | .bi => .ok (.rockerBi b)
    | .bo => .ok (.rockerBo b)
    | .ai => .ok (.rockerAi b)
    | .ao => .ok (.rockerAo b)
  else .error .codeNotMatched

/-- An operation on a Telegram operand. -/
def decodeOnTelegram (op : Telegram → Instr) (bs : List Byte) : Except DecodeError Instr :=
  match readTelegram bs with
  | some t => .ok (op t)
  | none => .error .notATelegram

/-- Whether a slot takes a text operand: the two that take a profile id (R85, R220). -/
def slotTakesText : Slot → Bool
  | .call .decode => true
  | .call .profile => true
  | _ => false

/-- The operation of a call slot, by its operands (R72). CRC8 is total on every byte sequence
(R101); that the ids may have any length too is read from the pseudocode of R227 and R228
(notes/assumptions/23.md). -/
def decodeCall (c : CallSlot) (text : String) (bs : List Byte) : Except DecodeError Instr :=
  match c with
  | .crc8 => .ok (.crc8 bs)
  | .verify => (readFirst bs).map fun (expected, bs) => .verify bs expected
  | .parseEnvelope => .ok (.parseEnvelope bs)
  | .parseTelegram =>
    match readEnvelope bs with
    | some e => .ok (.parseTelegram e)
    | none => .error .notAnEnvelope
  | .decode => decodeOnTelegram (.decode text) bs
  | .profile => decodeProfile text bs
  | .normalizeId => .ok (.normalizeId bs)
  | .directoryKey => .ok (.directoryKey bs)
  | .dispatch => decodeOnTelegram .dispatch bs
  | .frameByte0 => (readSingle bs).map fun b => if b = 0x55 then .sync else .syncBad b
  | .frameByte4 => (readSingle bs).map fun b => if b = 0x0A then .ptRadio else .ptOther b
  | .headerAddress => (readFirst bs).map fun (h, rest) => decodeHeaderAddress h rest
  | .headerExt => (readFirst bs).map fun (h, rest) => decodeHeaderExt h rest
  | .headerKind => (readFirst bs).map fun (h, rest) => decodeHeaderKind h rest
  | .contactCode => (readSingle bs).map fun b => if b = 0x08 then .contactOpen else .contactClosed b
  | .rockerCode label => (readSingle bs).bind (decodeRocker label)

/-- The operation of a step of ASM: the value of `asm_st`, then the byte taken (R71, R120). -/
def decodeAsmStep : List Byte → Except DecodeError Instr
  | [code, b] => decodeAsm code b
  | _ :: _ :: _ :: _ => .error .extraOperand
  | _ => .error .missingOperand

/-- Decode a transaction (R71, R72): total, refusing by name. -/
def decode (t : Txn) : Except DecodeError Instr :=
  if t.text ≠ "" ∧ slotTakesText t.slot = false then .error .unexpectedText
  else
    match t.slot with
    | .asmState => decodeAsmStep t.bytes
    | .pipeAgent => if t.bytes = [] then .ok .pipeStep else .error .extraOperand
    | .call c => decodeCall c t.text t.bytes

/-! ### Encoding -/

/-- A byte that may be absent, as `readOptByte` reads it. -/
def optByteBytes : Option Byte → List Byte
  | none => [0x00]
  | some b => [0x01, b]

/-- A destination id that may be absent, as `readOptDestination` reads it. -/
def optDestinationBytes : Option (List Byte) → List Byte
  | none => [0x00]
  | some d => 0x01 :: d

/-- The `kind_sel` value of a kind (R79). -/
def kindByte : TelegramKind → Byte
  | .rps => 0x00
  | .oneByte => 0x01
  | .fourByte => 0x02

/-- An Envelope as operand bytes. -/
def envelopeBytes (e : Envelope) : List Byte :=
  e.dataLength.extractLsb' 8 8 :: e.dataLength.extractLsb' 0 8 :: e.optionalLength :: e.packetType
    :: (e.payload ++ (e.optional ++ [e.trailer]))

/-- A Telegram as operand bytes. -/
def telegramBytes (t : Telegram) : List Byte :=
  t.addressControl.setWidth 8
    :: (optByteBytes t.extHeader ++ (optByteBytes t.extKind
      ++ (BitVec.ofNat 8 t.originatorId.length :: (t.originatorId
        ++ (optDestinationBytes t.destinationId
          ++ (kindByte t.telegramKind :: (t.data
            ++ [t.subtelegramCount, (-t.signalStrengthDbm).setWidth 8])))))))

/-- A call with no text operand. -/
def callTxn (c : CallSlot) (bs : List Byte) : Txn := ⟨.call c, "", bs⟩

/-- The transaction of an operation. Rows of the table that fix bits have those bits as the table
gives them; an operand the row leaves free stands in its place. -/
def encode : Instr → Txn
  | .crc8 bs => callTxn .crc8 bs
  | .verify bs expected => callTxn .verify (expected :: bs)
  | .asmWaitSync b => ⟨.asmState, "", [0b000, b]⟩
  | .asmLenHi b => ⟨.asmState, "", [0b001, b]⟩
  | .asmLenLo b => ⟨.asmState, "", [0b010, b]⟩
  | .asmOptLen b => ⟨.asmState, "", [0b011, b]⟩
  | .asmBody b => ⟨.asmState, "", [0b100, b]⟩
  | .parseEnvelope frame => callTxn .parseEnvelope frame
  | .parseTelegram e => callTxn .parseTelegram (envelopeBytes e)
  | .decode1003 d => ⟨.call .profile, "10-03", d⟩
  | .decode0205 d => ⟨.call .profile, "02-05", d⟩
  | .decode0401 d => ⟨.call .profile, "04-01", d⟩
  | .decode0001 d => ⟨.call .profile, "00-01", d⟩
  | .decode0204 d => ⟨.call .profile, "02-04", d⟩
  | .decode pid t => ⟨.call .decode, pid, telegramBytes t⟩
  | .normalizeId ident => callTxn .normalizeId ident
  | .directoryKey ident => callTxn .directoryKey ident
  | .dispatch t => callTxn .dispatch (telegramBytes t)
  | .pipeStep => ⟨.pipeAgent, "", []⟩
  | .sync => callTxn .frameByte0 [0x55]
  | .syncBad b => callTxn .frameByte0 [b]
  | .ptRadio => callTxn .frameByte4 [0x0A]
  | .ptOther b => callTxn .frameByte4 [b]
  | .ac000 h rest => callTxn .headerAddress (h :: rest)
  | .ac001 h rest => callTxn .headerAddress (h :: rest)
  | .ac010 h rest => callTxn .headerAddress (h :: rest)
  | .ac011 h rest => callTxn .headerAddress (h :: rest)
  | .acReserved h rest => callTxn .headerAddress (h :: rest)
  | .xhAbsent h rest => callTxn .headerExt (h :: rest)
  | .xhPresent h rest => callTxn .headerExt (h :: rest)
  | .kindRps h rest => callTxn .headerKind (h :: rest)
  | .kindOneByte h rest => callTxn .headerKind (h :: rest)
  | .kindFourByte h rest => callTxn .headerKind (h :: rest)
  | .kindReserved h rest => callTxn .headerKind (h :: rest)
  | .kindExt h rest => callTxn .headerKind (h :: rest)
  | .contactOpen => callTxn .contactCode [0x08]
  | .contactClosed b => callTxn .contactCode [b]
  | .rockerBi b => callTxn (.rockerCode .bi) [b]
  | .rockerBo b => callTxn (.rockerCode .bo) [b]
  | .rockerAi b => callTxn (.rockerCode .ai) [b]
  | .rockerAo b => callTxn (.rockerCode .ao) [b]

/-! ### The table's words -/

/-- How many operand bytes of zeros follow a header byte given as a bare number: enough for every
field the longest supported telegram has after its header (R81). -/
def tableOperandZeros : Nat := 16

/-- The slot in which a bare 8-bit number is read. The table's rows of different formats share
bit patterns and a number does not say its format, so the first of these that fits is taken
(notes/assumptions/5.md): an asm_st value, the one value of frame byte 0, of frame byte 4, of the
contact code, a rocker code without a second label, then the header byte's fields. -/
def tableSlot (w : Nat) : Slot :=
  if w < 5 then .asmState
  else if w = 0x55 then .call .frameByte0
  else if w = 0x0A then .call .frameByte4
  else if w = 0x08 then .call .contactCode
  else if w = 0x88 then .call (.rockerCode .bi)
  else if w = 0x84 then .call (.rockerCode .bo)
  else if w = 0x82 then .call (.rockerCode .ai)
  else if w = 0x81 then .call (.rockerCode .ao)
  else if 0x20 ≤ w then .call .headerAddress
  else if w = 0x10 then .call .headerExt
  else if w = 0x09 then .call .headerAddress
  else .call .headerKind

/-- The transaction of a bare number of the table, every bit above the number 0. -/
def tableTxn (nbits w : Nat) : Option Txn :=
  if nbits = 8 ∧ w < 256 then
    let byte := BitVec.ofNat 8 w
    match tableSlot w with
    | .asmState => some ⟨.asmState, "", [byte, 0x00]⟩
    | .pipeAgent => none
    | .call .headerAddress => some (callTxn .headerAddress (byte :: List.replicate tableOperandZeros 0x00))
    | .call .headerExt => some (callTxn .headerExt (byte :: List.replicate tableOperandZeros 0x00))
    | .call .headerKind => some (callTxn .headerKind (byte :: List.replicate tableOperandZeros 0x00))
    | .call c => some (callTxn c [byte])
  else none

/-- The operation the decoder reads from a word of the table. -/
def decodeTableWord (nbits w : Nat) : Option Instr :=
  match tableTxn nbits w with
  | none => none
  | some t =>
    match decode t with
    | .ok i => some i
    | .error _ => none

end Sys2Proof
end

