-- ==== Sys2Proof/Config.lean ====
section
/-!
DEFINITION. The parameters of spec/00_scope.md R8. They are fixed before reset ends (spec/10_state.md R32, spec/70_reset_and_hazards.md R282) and no operation changes them. The default values stand in Sys2Proof/Machine/Params.lean.
-/

namespace Sys2Proof

/-- FIFO_DEPTH: a positive integer or unbounded (R8). `bounded n` holds `n + 1` frames, so that a
depth of 0 cannot be written. -/
inductive FifoDepth where
  | unbounded
  | bounded (n : Nat)
  deriving DecidableEq, Repr

/-- FIFO_POLICY: what a full channel does (R126, spec/90_conflicts.md C2). -/
inductive FifoPolicy where
  | dropOldest
  | blockProducer
  deriving DecidableEq, Repr

/-- DATA_CRC_SPAN: what the data checksum covers (R189, spec/90_conflicts.md C3). -/
inductive DataCrcSpan where
  | dataField
  | telegramPrefix
  deriving DecidableEq, Repr

/-- The constant state and the parameters (R8, R28, R29). A finite map is a list of pairs, its
first pair with a key being the map's value there. NUM_REPR is fixed to exact rationals and has
no field. -/
structure Config where
  crcTable        : Vector Byte 256
  crcInit         : Byte
  fifoDepth       : FifoDepth
  fifoPolicy      : FifoPolicy
  dataCrcSpan     : DataCrcSpan
  deviceDirectory : List (String × String)
  modelToProfile  : List (String × String)
  decodersPresent : Bool
  deriving DecidableEq, Repr

end Sys2Proof
end

