-- ==== Sys2Proof/Machine/State.lean ====
section
/-!
DEFINITION. The state of PTE-CORE (spec/10_state.md), the values its operations produce, the reasons a step can stop, and the machine right after reset (spec/10_state.md R37, spec/70_reset_and_hazards.md R280, R282).
-/

namespace Sys2Proof.Machine

/-- Every error an operation can return (spec/60_exceptions.md R250), by its name. The framing
errors are no values of this type: they are trace events (R256). -/
inductive ErrorName where
  | tooShort
  | badSync
  | headerChecksumMismatch
  | unsupportedPacketType
  | lengthMismatch
  | oversizedFrame
  | unsupportedShortTelegram
  | unsupportedAddressControl
  | unsupportedTelegramKind
  | dataChecksumMismatch
  | optionalChecksumMismatch
  | telegramTruncated
  | missingDataByte
  | unmappedDevice
  | unsupportedModel
  deriving DecidableEq, Repr

/-- The contact of profile 00-01 (R35). -/
inductive Contact where
  | opened
  | closed
  deriving DecidableEq, Repr

/-- What a profile decoder produces (R35). Temperatures and humidity are exact rationals (R8). -/
inductive Reading where
  | temperatureSoilMoisture (temperature : Rat) (pointControl : Byte)
  | temperature (temperature : Rat)
  | temperatureHumidity (temperature humidity : Rat)
  | contactState (contact : Contact)
  | rockerPresses (labels : List RockerLabel)
  deriving DecidableEq, Repr

/-- The severity field of a record (R241, R243). -/
inductive Severity where
  | none
  | normal
  | low
  deriving DecidableEq, Repr

/-- The record PIPE delivers for one frame (R241). -/
structure Record where
  code     : Byte
  frame    : RawFrame
  telegram : Option Telegram
  reading  : Option Reading
  severity : Severity
  deriving DecidableEq, Repr

/-- The events of the observation trace (R36). -/
inductive Event where
  | discard (b : Byte)
  | framingError (bytes : List Byte)
  | frameDropped (frame : RawFrame)
  deriving DecidableEq, Repr

/-- The values of `asm_st` (R23). -/
inductive AsmSt where
  | waitSync
  | readLenHi
  | readLenLo
  | readOptLen
  | readBody
  deriving DecidableEq, Repr

/-- What a direct operation returns to HOST (R14, R72), or what a field row decides. -/
inductive Result where
  | u8 (v : Byte)
  | boolean (v : Bool)
  | envelope (r : Except ErrorName Envelope)
  | telegram (r : Except ErrorName Telegram)
  | reading (r : Except ErrorName Reading)
  | ident (bs : List Byte)
  | key (s : String)
  /-- A field check of the envelope parser: it passes or ends the parse (R152, R155). -/
  | fieldCheck (r : Except ErrorName Unit)
  /-- The extended header, if any, and the bytes not read yet (R80, R183). -/
  | extHeader (r : Except ErrorName (Option Byte × List Byte))
  /-- The originator, the destination, if any, and the bytes not read yet (R186). -/
  | addresses (r : Except ErrorName (List Byte × Option (List Byte) × List Byte))
  /-- The kind, the data and the bytes not read yet (R187, R188). -/
  | kindData (r : Except ErrorName (TelegramKind × List Byte × List Byte))
  | contact (c : Contact)
  /-- The labels a rocker row adds to the list (R225). -/
  | rocker (labels : List RockerLabel)
  deriving DecidableEq, Repr

/-- One entry of the machine's schedule: a transaction of HOST (R72, R86, R281) or the turn of an
agent to step (R262). -/
inductive Turn where
  /-- HOST applies reset (R281). -/
  | reset
  /-- A byte arrives at the tail of BYTE_IN (R54). -/
  | byte (b : Byte)
  /-- ASM's turn: one ASM step, where one is enabled (R120). -/
  | asm
  /-- PIPE's turn: one PIPE step, where one is enabled (R240). -/
  | pipe
  /-- HOST calls an operation (R72). -/
  | call (slot : CallSlot) (text : String) (bytes : List Byte)
  deriving DecidableEq, Repr

/-- The frame buffer memory (R50): cells at strictly rising addresses. -/
abbrev Memory := List Host.Cell

/-- What an address reads as when no cell lists it: nothing, since no byte has been appended there
after the last clear (R52, notes/assumptions/8.md). -/
def Memory.unlisted : Option Byte := none

/-- The indices the frame buffer has: 0 up to this number, exclusive. `MAX_FRAME` of R6, R50. -/
def maxFrame : Nat := 65535

/-- The state of PTE-CORE. `asm_len` is the number of cells of `frameBuf` (R24). -/
structure State where
  /-- `asm_st` (R23). -/
  asmSt : AsmSt
  /-- `asm_buf` in the frame buffer memory (R24, R50). -/
  frameBuf : Memory
  /-- `chan`, its head first (R27). -/
  chan : List RawFrame
  /-- `trace`, the oldest event first (R36). -/
  trace : List Event
  /-- The bytes waiting on BYTE_IN, the head first (R54, R72). -/
  byteIn : List Byte
  /-- The records delivered on RESULT_OUT, the oldest first (R242). HOST's view. -/
  resultOut : List Record
  /-- What the last direct operation returned (R86). HOST's view. -/
  lastResult : Option Result
  /-- The turns to come, the next one first. The model's own (notes/assumptions/1.md). -/
  turns : List Turn
  /-- The constant state and the parameters (R28, R29, R8). -/
  cfg : Config
  /-- Whether the serial transport could be opened (R257, R282). Where it was not, no agent's step
  is enabled (notes/assumptions/12.md). -/
  serialOpen : Bool
  deriving DecidableEq, Repr

/-- Why the machine stops. No rule of the spec ends in one of these (R252, R257); they are for
states that the invariant of R25 rules out. -/
inductive Fault where
  /-- An append at an index the frame buffer does not have (R50). Raised by the append. Safe. -/
  | frameBufferIndex
  /-- A length byte read at an index where nothing has been appended since the last clear (R26,
  R52). Raised by ASM_OPTLEN and ASM_BODY. Safe. -/
  | frameBufferUnreadable
  /-- A frame delivered to a full channel under BLOCK_PRODUCER, which R126 calls unreachable.
  Raised by ASM_BODY. Safe. -/
  | producerHeld
  deriving DecidableEq, Repr

/-- What the model gives no meaning to. -/
inductive Refusal where
  /-- An operation with no meaning in the model. Raised by `exec`. Safe. -/
  | notModelled (mnemonic : String)
  /-- A transaction of HOST that names no operation (R71, R72). Raised by `step`. Safe. -/
  | undecodable (e : DecodeError)
  deriving DecidableEq, Repr

/-- The machine as reset ends with the given parameters, the transport opened or not (R280, R282). -/
def State.boot (cfg : Config) (serialOpen : Bool) : State where
  asmSt := .waitSync
  frameBuf := []
  chan := []
  trace := []
  byteIn := []
  resultOut := []
  lastResult := none
  turns := []
  cfg := cfg
  serialOpen := serialOpen

/-- The machine right after reset (R37, R280), the transport opened (R282 step 3), with the
parameters of `defaultConfig`. -/
def State.reset : State := State.boot defaultConfig true

end Sys2Proof.Machine
end

