-- ==== Sys2Proof/Machine/Flags.lean ====
section
/-!
DEFINITION. PTE-CORE has no status flag and no condition code (spec/10_state.md R31). What stands in their place is the code and the severity that a result carries: spec/60_exceptions.md R251 and spec/45_pipeline.md R243.
-/

namespace Sys2Proof.Machine

/-- The code of success, `OK` (R251). -/
def codeOk : Byte := 0x00

/-- The code of an error (R251). -/
def ErrorName.code : ErrorName → Byte
  | .tooShort => 0x10
  | .badSync => 0x11
  | .headerChecksumMismatch => 0x12
  | .unsupportedPacketType => 0x13
  | .lengthMismatch => 0x14
  | .oversizedFrame => 0x15
  | .unsupportedShortTelegram => 0x20
  | .unsupportedAddressControl => 0x21
  | .unsupportedTelegramKind => 0x22
  | .dataChecksumMismatch => 0x23
  | .optionalChecksumMismatch => 0x24
  | .telegramTruncated => 0x25
  | .missingDataByte => 0x30
  | .unmappedDevice => 0x31
  | .unsupportedModel => 0x32

/-- The code that labels a trace event (R251): `FRAMING_OVERSIZE`, `SYNC_DISCARD`,
`FRAME_DROPPED`. -/
def Event.code : Event → Byte
  | .framingError _ => 0x01
  | .discard _ => 0x02
  | .frameDropped _ => 0x03

/-- The severity of an error (R243): low for decode errors, normal for the others. -/
def ErrorName.severity : ErrorName → Severity
  | .missingDataByte => .low
  | .unmappedDevice => .low
  | .unsupportedModel => .low
  | .tooShort => .normal
  | .badSync => .normal
  | .headerChecksumMismatch => .normal
  | .unsupportedPacketType => .normal
  | .lengthMismatch => .normal
  | .oversizedFrame => .normal
  | .unsupportedShortTelegram => .normal
  | .unsupportedAddressControl => .normal
  | .unsupportedTelegramKind => .normal
  | .dataChecksumMismatch => .normal
  | .optionalChecksumMismatch => .normal
  | .telegramTruncated => .normal

end Sys2Proof.Machine
end

