-- ==== Sys2Proof/Machine/Ops.lean ====
section
/-!
DEFINITION. The named operations over the frame buffer, the CRC table, the cursor, the channel, the trace and the ports, and what stands in for taking an exception: an error reported in the record of its frame (spec/60_exceptions.md R254, R255).
-/

namespace Sys2Proof.Machine

/-! ### The frame buffer (R50, R52) -/

/-- The byte at an index, if one has been appended there since the last clear (R52). -/
def Memory.read (m : Memory) (a : Nat) : Option Byte :=
  match m.lookup a with
  | some b => some b
  | none => Memory.unlisted

/-- Write one byte, keeping the addresses rising. -/
def Memory.write : Memory → Nat → Byte → Memory
  | [], a, b => [(a, b)]
  | (x, v) :: m, a, b =>
    if a < x then (a, b) :: (x, v) :: m
    else if a = x then (a, b) :: m
    else (x, v) :: Memory.write m a b

/-- The canonical form: strictly rising addresses, each an index of the frame buffer (R50). No
cell can equal what an unlisted address reads as, since that is no value. -/
def Memory.wf (m : Memory) : Bool :=
  decide (m.Pairwise fun c d => c.1 < d.1) && m.all fun c => decide (c.1 < maxFrame)

/-- The bytes in order of their addresses. -/
def Memory.bytes (m : Memory) : List Byte := m.map Prod.snd

/-- The cells that hold a byte sequence from an index on. -/
def Memory.ofBytesFrom : Nat → List Byte → Memory
  | _, [] => []
  | a, b :: bs => (a, b) :: Memory.ofBytesFrom (a + 1) bs

/-- The frame buffer that holds a byte sequence from index 0 (R24). -/
def Memory.ofBytes (bs : List Byte) : Memory := Memory.ofBytesFrom 0 bs

/-- The buffer after `clear()`: nothing readable (R52). -/
def Memory.cleared : Memory := []

/-- `asm_len`, by R24 the length of `asm_buf`. -/
def State.asmLen (s : State) : Nat := s.frameBuf.length

/-- `asm_buf` as a byte sequence (R24). -/
def State.asmBuf (s : State) : List Byte := s.frameBuf.bytes

/-- `append(b)`: the write at index `asm_len` (R52), a fault where the frame buffer has no such
index (R50). -/
def State.appendByte (s : State) (b : Byte) : Except Fault State :=
  if s.asmLen < maxFrame then .ok { s with frameBuf := s.frameBuf.write s.asmLen b }
  else .error .frameBufferIndex

/-- `clear()`: `asm_len <- 0` (R52). -/
def State.clearBuf (s : State) : State := { s with frameBuf := Memory.cleared }

/-! ### Outcomes -/

/-- An assembler operation's outcome: its next state, or the fault it met. -/
def outcomeOf : Except Fault State → Host.Outcome State Fault Refusal
  | .ok s => .next s
  | .error f => .fault f

/-- The outcome of a direct operation: its value is returned and nothing else is touched (R72). -/
def answer (r : Result) (s : State) : Host.Outcome State Fault Refusal :=
  .next { s with lastResult := some r }

/-! ### Checks and the cursor (R13, R15, R180, R194) -/

/-- One check of a parser: go on, or end with the error (R15). -/
def ensure (c : Bool) (e : ErrorName) : Except ErrorName Unit :=
  if c then .ok () else .error e

/-- `take(w)` on the bytes the cursor has not read: the `w` bytes and what is left (R180), or
TelegramTruncated (R194). -/
def take (w : Nat) (rest : List Byte) : Except ErrorName (List Byte × List Byte) :=
  if w ≤ rest.length then .ok (rest.take w, rest.drop w) else .error .telegramTruncated

/-- `take(1)[0]` and what is left (R180, R194). -/
def takeByte : List Byte → Except ErrorName (Byte × List Byte)
  | [] => .error .telegramTruncated
  | b :: rest => .ok (b, rest)

/-! ### The CRC engine (R100 to R102) -/

/-- `ROM(i)` (R13, R51). -/
def rom (cfg : Config) (i : Byte) : Byte := cfg.crcTable[i.toNat]'i.isLt

/-- `CRC8(bs)` (R101). -/
def crc8 (cfg : Config) (bs : List Byte) : Byte :=
  bs.foldl (fun c b => rom cfg (c ^^^ b)) cfg.crcInit

/-- `VERIFY(bs, expected)` (R102). -/
def verify (cfg : Config) (bs : List Byte) (expected : Byte) : Bool := crc8 cfg bs == expected

/-! ### Trace, channel and RESULT_OUT -/

/-- `event(e)` (R13, R36). -/
def State.event (s : State) (e : Event) : State := { s with trace := s.trace ++ [e] }

/-- FIFO_DEPTH as a number of frames, none when unbounded (R8). -/
def depthOf : FifoDepth → Option Nat
  | .unbounded => none
  | .bounded n => some (n + 1)

/-- `len(chan) < FIFO_DEPTH`, always true when unbounded (R126). -/
def State.chanHasRoom (s : State) : Bool :=
  match depthOf s.cfg.fifoDepth with
  | none => true
  | some d => decide (s.chan.length < d)

/-- `len(chan) = FIFO_DEPTH` (R126). -/
def State.chanFull (s : State) : Bool :=
  match depthOf s.cfg.fifoDepth with
  | none => false
  | some d => s.chan.length == d

/-- `enqueue(F)` (R13, R27). -/
def State.enqueue (s : State) (frame : RawFrame) : State := { s with chan := s.chan ++ [frame] }

/-- The head of a full channel is lost and the loss traced (R126, DROP_OLDEST). A full channel is
not empty, its depth being positive. -/
def State.dropOldest (s : State) : State :=
  match s.chan with
  | [] => s
  | oldest :: rest => { s with chan := rest }.event (.frameDropped oldest)

/-- `deliver(F)` (R126). The last arm is the one the rule calls unreachable. -/
def State.deliver (s : State) (frame : RawFrame) : Except Fault State :=
  if s.chanHasRoom then .ok (s.enqueue frame)
  else
    match s.cfg.fifoPolicy with
    | .dropOldest => .ok (s.dropOldest.enqueue frame)
    | .blockProducer => .error .producerHeld

/-- `emit_result(r)` (R13, R242): never blocks, never fails. -/
def State.emitResult (s : State) (r : Record) : State := { s with resultOut := s.resultOut ++ [r] }

/-- TAKING AN EXCEPTION (R254): the error's code and severity go into the record of the frame,
with the telegram if it was parsed, and the record is emitted. Nothing is saved and no mode
changes. There is no return from it (R255): PIPE's next step handles the next frame. -/
def State.rejectFrame (s : State) (e : ErrorName) (frame : RawFrame) (telegram : Option Telegram) : State :=
  s.emitResult ⟨e.code, frame, telegram, none, e.severity⟩

/-- The record of a frame handled without error (R240, R241). -/
def State.acceptFrame (s : State) (frame : RawFrame) (telegram : Telegram) (reading : Option Reading) : State :=
  s.emitResult ⟨codeOk, frame, some telegram, reading, .none⟩

/-! ### Reset (R280, R281) -/

/-- Reset: the assembler, the channel and the trace take their reset values, the constant state
and the bytes on BYTE_IN stay (R280, R281). What HOST has received and plans to do is HOST's. -/
def State.applyReset (s : State) : State :=
  { s with asmSt := .waitSync, frameBuf := Memory.cleared, chan := [], trace := [] }

end Sys2Proof.Machine
end

