-- ==== Sys2Proof/Machine/Operands.lean ====
section
/-!
DEFINITION. The fields and lengths that operations read from their operands: the assembler's lengths (spec/10_state.md R26), the telegram header's maps (spec/30_encoding.md R77 to R82), the address, kind and data fields (spec/43_telegram_parser.md R183 to R191), the ids (spec/44_profile_decoders.md R227, R228).
-/

namespace Sys2Proof.Machine

/-! ### Frame lengths (R26, R73) -/

/-- `6 + data_length + optional_length + 1`, not truncated (R7, R26). -/
def frameLength (dataLength : BitVec 16) (optionalLength : Byte) : Nat :=
  6 + dataLength.toNat + optionalLength.toNat + 1

/-- `total(buf)`, read from the frame buffer's bytes 1 to 3 (R26, R50). -/
def Memory.total (m : Memory) : Option Nat :=
  match m.read 1, m.read 2, m.read 3 with
  | some hi, some lo, some ol => some (frameLength (be16 hi lo) ol)
  | _, _, _ => none

/-- The same length, read from a frame (R26). -/
def frameTotal (frame : RawFrame) : Option Nat :=
  match frame[1]?, frame[2]?, frame[3]? with
  | some hi, some lo, some ol => some (frameLength (be16 hi lo) ol)
  | _, _, _ => none

/-! ### The assembler's state register (R23) -/

/-- The 3-bit encoding of `asm_st` (R23). -/
def AsmSt.code : AsmSt → Byte
  | .waitSync => 0
  | .readLenHi => 1
  | .readLenLo => 2
  | .readOptLen => 3
  | .readBody => 4

/-! ### The telegram's fields -/

/-- The widths of originator and destination that `address_control` selects (R78, R185). -/
def addressLayout (ac : BitVec 3) : Except ErrorName (Nat × Nat) :=
  if ac = 0b000 then .ok (3, 0)
  else if ac = 0b001 then .ok (4, 0)
  else if ac = 0b010 then .ok (4, 4)
  else if ac = 0b011 then .ok (6, 0)
  else .error .unsupportedAddressControl

/-- The kind that `kind_sel` selects (R79, R187). -/
def kindLayout (ks : BitVec 4) : Except ErrorName TelegramKind :=
  if ks = 0 then .ok .rps
  else if ks = 1 then .ok .oneByte
  else if ks = 2 then .ok .fourByte
  else .error .unsupportedTelegramKind

/-- One byte that the header says is there, or is not: the extended header (R183) and the extended
kind (R184). -/
def readExtension (present : Bool) (rest : List Byte) : Except ErrorName (Option Byte × List Byte) :=
  if present then (takeByte rest).map fun (b, rest) => (some b, rest) else .ok (none, rest)

/-- The destination, 4 bytes, when `DW = 4` (R180, R186). -/
def readDestination (dw : Nat) (rest : List Byte) : Except ErrorName (Option (List Byte) × List Byte) :=
  if dw = 4 then (take 4 rest).map fun (d, rest) => (some d, rest) else .ok (none, rest)

/-- The originator of `OW` bytes, then the destination of `DW` bytes (R186). -/
def readAddresses (ow dw : Nat) (rest : List Byte) :
    Except ErrorName (List Byte × Option (List Byte) × List Byte) := do
  let (originator, rest) ← take ow rest
  let (destination, rest) ← readDestination dw rest
  .ok (originator, destination, rest)

/-- The data of a kind, `DN` bytes (R188). -/
def readData (kind : TelegramKind) (dn : Nat) (rest : List Byte) :
    Except ErrorName (TelegramKind × List Byte × List Byte) :=
  (take dn rest).map fun (data, rest) => (kind, data, rest)

/-- The addresses that a header byte's selector asks for (R185, R186). -/
def readHeaderAddresses (h : Byte) (rest : List Byte) :
    Except ErrorName (List Byte × Option (List Byte) × List Byte) := do
  let (ow, dw) ← addressLayout (headerAddressControl h)
  readAddresses ow dw rest

/-- The kind and the data that a header byte's selector asks for (R187, R188). -/
def readHeaderData (h : Byte) (rest : List Byte) :
    Except ErrorName (TelegramKind × List Byte × List Byte) := do
  let kind ← kindLayout (headerKindSel h)
  readData kind kind.dataLength rest

/-- The bytes the data checksum covers (R106, R189): the data, or `S` up to the data's end, where
`rest` is what the cursor has not read after the data. -/
def dataSpan (span : DataCrcSpan) (s data rest : List Byte) : List Byte :=
  match span with
  | .dataField => data
  | .telegramPrefix => s.take (s.length - rest.length)

/-! ### Checks on frame bytes -/

/-- Frame byte 0 must be 0x55 (R74, R152). -/
def checkSync (b : Byte) : Except ErrorName Unit := ensure (b == 0x55) .badSync

/-- Frame byte 4 must be 10 (R75, R155). -/
def checkPacketType (b : Byte) : Except ErrorName Unit := ensure (b == 10) .unsupportedPacketType

/-! ### Codes of a data byte (R85) -/

/-- The contact of a data byte (R224). -/
def contactOf (b : Byte) : Contact := if b = 0b00001000 then .opened else .closed

/-- What the test of one rocker label adds to the list (R225). -/
def rockerTest (label : RockerLabel) (b : Byte) : List RockerLabel :=
  if b &&& label.mask = label.mask then [label] else []

/-! ### Ids -/

/-- `NORMALIZE_ID(id)` (R227). -/
def normalise (ident : List Byte) : List Byte :=
  if ident.length = 6 ∧ ident[0]? = some 0x00 ∧ ident[1]? = some 0x00 then ident.drop 2 else ident

/-- A lowercase hexadecimal digit (R228). -/
def hexDigit (n : BitVec 4) : Char :=
  if n.toNat < 10 then Char.ofNat (48 + n.toNat) else Char.ofNat (87 + n.toNat)

/-- `HEX2(b)`: two digits, the high nibble first (R228). -/
def hex2 (b : Byte) : List Char := [hexDigit (b.extractLsb' 4 4), hexDigit (b.extractLsb' 0 4)]

/-- `DIRECTORY_KEY(id)` (R228). -/
def keyOf (ident : List Byte) : String := String.ofList (ident.flatMap hex2)

end Sys2Proof.Machine
end

