-- ==== Sys2Proof/Machine/Assembler.lean ====
section
/-!
DEFINITION. The frame assembler's operations (spec/41_frame_assembler.md R121 to R126), each on the byte its step has removed from BYTE_IN (R120), and the hold of R126.
-/

namespace Sys2Proof.Machine

/-- Whether the next input byte would complete a frame that has no room, under BLOCK_PRODUCER
(R126): the ASM step is then not enabled. -/
def State.asmHeld (s : State) : Bool :=
  s.cfg.fifoPolicy == .blockProducer && s.asmSt == .readBody
    && s.frameBuf.total == some (s.asmLen + 1) && s.chanFull

/-- `append(b)`, then the next state of the assembler. -/
def appendThen (b : Byte) (next : AsmSt) (s : State) : Except Fault State :=
  (s.appendByte b).map fun s => { s with asmSt := next }

/-- ASM_WAITSYNC (R121): the sync byte starts a frame, another byte is discarded. -/
def execAsmWaitSync (b : Byte) (s : State) : Host.Outcome State Fault Refusal :=
  if b = 0x55 then outcomeOf (appendThen b .readLenHi s)
  else .next { s.event (.discard b) with asmSt := .waitSync }

/-- ASM_LENHI (R122). -/
def execAsmLenHi (b : Byte) (s : State) : Host.Outcome State Fault Refusal :=
  outcomeOf (appendThen b .readLenLo s)

/-- ASM_LENLO (R123). -/
def execAsmLenLo (b : Byte) (s : State) : Host.Outcome State Fault Refusal :=
  outcomeOf (appendThen b .readOptLen s)

/-- `total(buf)`, a fault where a length byte is not there (R26, R52). -/
def State.readTotal (s : State) : Except Fault Nat :=
  match s.frameBuf.total with
  | some n => .ok n
  | none => .error .frameBufferUnreadable

/-- Drop an oversize header: the event, the clear, the return to WaitSync (R124, R130). -/
def State.dropOversize (s : State) : State :=
  { (s.event (.framingError (s.asmBuf.take 4))).clearBuf with asmSt := .waitSync }

/-- ASM_OPTLEN (R124). -/
def execAsmOptLen (b : Byte) (s : State) : Host.Outcome State Fault Refusal :=
  outcomeOf do
    let s ← s.appendByte b
    let total ← s.readTotal
    if maxFrame < total then .ok s.dropOversize else .ok { s with asmSt := .readBody }

/-- Hand over a copy of the buffer as a frame, clear the buffer and wait for the next sync byte
(R125, R283). -/
def State.emitFrame (s : State) : Except Fault State :=
  (s.deliver s.asmBuf).map fun s => { s.clearBuf with asmSt := .waitSync }

/-- ASM_BODY (R125): the byte that completes the frame also emits it. -/
def execAsmBody (b : Byte) (s : State) : Host.Outcome State Fault Refusal :=
  outcomeOf do
    let s ← s.appendByte b
    let total ← s.readTotal
    if s.asmLen = total then s.emitFrame else .ok { s with asmSt := .readBody }

end Sys2Proof.Machine
end

