-- ==== Sys2Proof/Machine/Crc8.lean ====
section
/-!
DEFINITION. The CRC8 engine's operations (spec/40_crc8.md R101, R102).
-/

namespace Sys2Proof.Machine

/-- CRC8 (R101): the checksum is returned, no state is written (R104). -/
def execCrc8 (bs : List Byte) (s : State) : Host.Outcome State Fault Refusal :=
  answer (.u8 (crc8 s.cfg bs)) s

/-- VERIFY (R102): whether the checksum matches; a mismatch is no error. -/
def execVerify (bs : List Byte) (expected : Byte) (s : State) : Host.Outcome State Fault Refusal :=
  answer (.boolean (verify s.cfg bs expected)) s

end Sys2Proof.Machine
end

