-- ==== Sys2Proof/Machine/Fields.lean ====
section
/-!
DEFINITION. The field rows of spec/opcode_table.json: what the unit that reads a field does on the row's value. Each answers the field's outcome and touches no other state (notes/assumptions/6.md). The header rows act on the bytes `rest` the cursor has not read; the rows' own widths and verdicts are those of spec/30_encoding.md R78 and R79.
-/

namespace Sys2Proof.Machine

/-- SYNC (R74): frame byte 0 passes. -/
def execSync (s : State) : Host.Outcome State Fault Refusal :=
  answer (.fieldCheck (checkSync 0x55)) s

/-- SYNC_BAD (R152): BadSync. -/
def execSyncBad (b : Byte) (s : State) : Host.Outcome State Fault Refusal :=
  answer (.fieldCheck (checkSync b)) s

/-- PT_RADIO (R75): frame byte 4 passes. -/
def execPtRadio (s : State) : Host.Outcome State Fault Refusal :=
  answer (.fieldCheck (checkPacketType 0x0A)) s

/-- PT_OTHER (R155): UnsupportedPacketType. -/
def execPtOther (b : Byte) (s : State) : Host.Outcome State Fault Refusal :=
  answer (.fieldCheck (checkPacketType b)) s

/-- AC_000 (R78, R186): a 3-byte originator, no destination. -/
def execAc000 (_h : Byte) (rest : List Byte) (s : State) : Host.Outcome State Fault Refusal :=
  answer (.addresses (readAddresses 3 0 rest)) s

/-- AC_001 (R78, R186): a 4-byte originator, no destination. -/
def execAc001 (_h : Byte) (rest : List Byte) (s : State) : Host.Outcome State Fault Refusal :=
  answer (.addresses (readAddresses 4 0 rest)) s

/-- AC_010 (R78, R186): a 4-byte originator and a 4-byte destination. -/
def execAc010 (_h : Byte) (rest : List Byte) (s : State) : Host.Outcome State Fault Refusal :=
  answer (.addresses (readAddresses 4 4 rest)) s

/-- AC_011 (R78, R186): a 6-byte originator, no destination. -/
def execAc011 (_h : Byte) (rest : List Byte) (s : State) : Host.Outcome State Fault Refusal :=
  answer (.addresses (readAddresses 6 0 rest)) s

/-- AC_RESERVED (R185): UnsupportedAddressControl, before any address is read. -/
def execAcReserved (_h : Byte) (_rest : List Byte) (s : State) : Host.Outcome State Fault Refusal :=
  answer (.addresses (.error .unsupportedAddressControl)) s

/-- XH_ABSENT (R80, R183): no extended header, no byte read. -/
def execXhAbsent (_h : Byte) (rest : List Byte) (s : State) : Host.Outcome State Fault Refusal :=
  answer (.extHeader (readExtension false rest)) s

/-- XH_PRESENT (R80, R183): one byte is read and kept. -/
def execXhPresent (_h : Byte) (rest : List Byte) (s : State) : Host.Outcome State Fault Refusal :=
  answer (.extHeader (readExtension true rest)) s

/-- KIND_RPS (R79, R188): one data byte. -/
def execKindRps (_h : Byte) (rest : List Byte) (s : State) : Host.Outcome State Fault Refusal :=
  answer (.kindData (readData .rps 1 rest)) s

/-- KIND_ONEBYTE (R79, R188): one data byte. -/
def execKindOneByte (_h : Byte) (rest : List Byte) (s : State) : Host.Outcome State Fault Refusal :=
  answer (.kindData (readData .oneByte 1 rest)) s

/-- KIND_FOURBYTE (R79, R188): four data bytes. -/
def execKindFourByte (_h : Byte) (rest : List Byte) (s : State) : Host.Outcome State Fault Refusal :=
  answer (.kindData (readData .fourByte 4 rest)) s

/-- KIND_RESERVED (R187): UnsupportedTelegramKind, before any data is read. -/
def execKindReserved (_h : Byte) (_rest : List Byte) (s : State) : Host.Outcome State Fault Refusal :=
  answer (.kindData (.error .unsupportedTelegramKind)) s

/-- KIND_EXT (R184, R196): the extended-kind byte is read, then the addresses, and the telegram
fails at the first of them that fails, else with UnsupportedTelegramKind. -/
def execKindExt (h : Byte) (rest : List Byte) (s : State) : Host.Outcome State Fault Refusal :=
  answer (.kindData (do
    let (_, rest) ← readExtension true rest
    let _ ← readHeaderAddresses h rest
    .error .unsupportedTelegramKind)) s

/-- CONTACT_OPEN (R224). -/
def execContactOpen (s : State) : Host.Outcome State Fault Refusal :=
  answer (.contact (contactOf 0x08)) s

/-- CONTACT_CLOSED (R224). -/
def execContactClosed (b : Byte) (s : State) : Host.Outcome State Fault Refusal :=
  answer (.contact (contactOf b)) s

/-- ROCKER_BI (R225): the label BI joins the list. -/
def execRockerBi (b : Byte) (s : State) : Host.Outcome State Fault Refusal :=
  answer (.rocker (rockerTest .bi b)) s

/-- ROCKER_BO (R225): the label BO joins the list. -/
def execRockerBo (b : Byte) (s : State) : Host.Outcome State Fault Refusal :=
  answer (.rocker (rockerTest .bo b)) s

/-- ROCKER_AI (R225): the label AI joins the list. -/
def execRockerAi (b : Byte) (s : State) : Host.Outcome State Fault Refusal :=
  answer (.rocker (rockerTest .ai b)) s

/-- ROCKER_AO (R225): the label AO joins the list. -/
def execRockerAo (b : Byte) (s : State) : Host.Outcome State Fault Refusal :=
  answer (.rocker (rockerTest .ao b)) s

end Sys2Proof.Machine
end

