-- ==== Sys2Proof/Machine/Envelope.lean ====
section
/-!
DEFINITION. The envelope parser (spec/42_envelope_parser.md R150 to R159).
-/

namespace Sys2Proof.Machine

/-- The checks on a frame of at least 6 bytes, in the order of R150, and the split (R158). `body`
is the frame from index 6 on. -/
def parseEnvelopeFields (cfg : Config) (sync hi lo ol pt hc : Byte) (body : List Byte) :
    Except ErrorName Envelope := do
  checkSync sync
  ensure (verify cfg [hi, lo, ol, pt] hc) .headerChecksumMismatch
  checkPacketType pt
  ensure (6 + body.length == frameLength (be16 hi lo) ol) .lengthMismatch
  ensure (decide (6 + body.length ≤ maxFrame)) .oversizedFrame
  let (payload, rest) := body.splitAt (be16 hi lo).toNat
  let (opt, rest) := rest.splitAt ol.toNat
  .ok ⟨be16 hi lo, ol, pt, payload, opt, rest.headD 0x00⟩

/-- `PARSE_ENVELOPE(F)` (R150): a frame of fewer than 6 bytes is TooShort (R151). -/
def parseEnvelope (cfg : Config) (frame : RawFrame) : Except ErrorName Envelope :=
  match frame with
  | sync :: hi :: lo :: ol :: pt :: hc :: body => parseEnvelopeFields cfg sync hi lo ol pt hc body
  | _ => .error .tooShort

/-- PARSE_ENVELOPE (R150). -/
def execParseEnvelope (frame : RawFrame) (s : State) : Host.Outcome State Fault Refusal :=
  answer (.envelope (parseEnvelope s.cfg frame)) s

end Sys2Proof.Machine
end

