-- ==== Sys2Proof/Machine/Profiles.lean ====
section
/-!
DEFINITION. The profile decoders and the lookup boundary (spec/44_profile_decoders.md R220 to R230).
-/

namespace Sys2Proof.Machine

/-- `(255 - d[2]) * 40 / 255` (R221, R222), exact (R8 NUM_REPR). -/
def fallingTemperature (b : Byte) : Rat := (255 - (b.toNat : Rat)) * 40 / 255

/-- `DECODE_10_03(d)` (R221); fewer than 3 bytes are MissingDataByte (R226). -/
def decode1003 (d : List Byte) : Except ErrorName Reading :=
  match d with
  | _ :: d1 :: d2 :: _ => .ok (.temperatureSoilMoisture (fallingTemperature d2) d1)
  | _ => .error .missingDataByte

/-- `DECODE_02_05(d)` (R222, R226). -/
def decode0205 (d : List Byte) : Except ErrorName Reading :=
  match d with
  | _ :: _ :: d2 :: _ => .ok (.temperature (fallingTemperature d2))
  | _ => .error .missingDataByte

/-- `DECODE_04_01(d)` (R223, R226), not clamped (I16). -/
def decode0401 (d : List Byte) : Except ErrorName Reading :=
  match d with
  | _ :: d1 :: d2 :: _ =>
    .ok (.temperatureHumidity ((d2.toNat : Rat) / 250 * 40) ((d1.toNat : Rat) / 250 * 100))
  | _ => .error .missingDataByte

/-- `DECODE_00_01(d)` (R224, R226). -/
def decode0001 (d : List Byte) : Except ErrorName Reading :=
  match d with
  | d0 :: _ => .ok (.contactState (contactOf d0))
  | [] => .error .missingDataByte

/-- `DECODE_02_04(d)` (R225, R226): the four tests in the rule's order. -/
def decode0204 (d : List Byte) : Except ErrorName Reading :=
  match d with
  | d0 :: _ =>
    .ok (.rockerPresses (rockerTest .bi d0 ++ rockerTest .bo d0 ++ rockerTest .ai d0 ++ rockerTest .ao d0))
  | [] => .error .missingDataByte

/-- `DECODE(pid, T)` (R220): only the telegram's data is read (R230). -/
def decodeReading (pid : String) (t : Telegram) : Except ErrorName Reading :=
  if pid = "10-03" then decode1003 t.data
  else if pid = "02-05" then decode0205 t.data
  else if pid = "04-01" then decode0401 t.data
  else if pid = "00-01" then decode0001 t.data
  else if pid = "02-04" then decode0204 t.data
  else .error .unsupportedModel

/-- `DISPATCH(T)` (R229): the directory, then the model map, then the decoder. -/
def dispatch (cfg : Config) (t : Telegram) : Except ErrorName Reading :=
  match cfg.deviceDirectory.lookup (keyOf (normalise t.originatorId)) with
  | none => .error .unmappedDevice
  | some label =>
    match cfg.modelToProfile.lookup label with
    | none => .error .unsupportedModel
    | some pid => decodeReading pid t

/-- DECODE_10_03 (R221). -/
def execDecode1003 (d : List Byte) (s : State) : Host.Outcome State Fault Refusal :=
  answer (.reading (decode1003 d)) s

/-- DECODE_02_05 (R222). -/
def execDecode0205 (d : List Byte) (s : State) : Host.Outcome State Fault Refusal :=
  answer (.reading (decode0205 d)) s

/-- DECODE_04_01 (R223). -/
def execDecode0401 (d : List Byte) (s : State) : Host.Outcome State Fault Refusal :=
  answer (.reading (decode0401 d)) s

/-- DECODE_00_01 (R224). -/
def execDecode0001 (d : List Byte) (s : State) : Host.Outcome State Fault Refusal :=
  answer (.reading (decode0001 d)) s

/-- DECODE_02_04 (R225). -/
def execDecode0204 (d : List Byte) (s : State) : Host.Outcome State Fault Refusal :=
  answer (.reading (decode0204 d)) s

/-- DECODE (R220). -/
def execDecode (pid : String) (t : Telegram) (s : State) : Host.Outcome State Fault Refusal :=
  answer (.reading (decodeReading pid t)) s

/-- NORMALIZE_ID (R227). -/
def execNormalizeId (ident : List Byte) (s : State) : Host.Outcome State Fault Refusal :=
  answer (.ident (normalise ident)) s

/-- DIRECTORY_KEY (R228). -/
def execDirectoryKey (ident : List Byte) (s : State) : Host.Outcome State Fault Refusal :=
  answer (.key (keyOf ident)) s

/-- DISPATCH (R229). -/
def execDispatch (t : Telegram) (s : State) : Host.Outcome State Fault Refusal :=
  answer (.reading (dispatch s.cfg t)) s

end Sys2Proof.Machine
end

