-- ==== Sys2Proof/Machine/Telegram.lean ====
section
/-!
DEFINITION. The telegram parser (spec/43_telegram_parser.md R180 to R196).
-/

namespace Sys2Proof.Machine

/-- `PARSE_TELEGRAM(E)` (R180): one cursor over `S = payload ++ optional`, each `rest` being the
bytes not read yet, the checks and reads in the order of the rule. -/
def parseTelegram (cfg : Config) (e : Envelope) : Except ErrorName Telegram := do
  ensure (decide (6 < e.dataLength.toNat)) .unsupportedShortTelegram
  let seq := e.payload ++ e.optional
  let (h, rest) ← takeByte seq
  let (extHeader, rest) ← readExtension (headerExtFlag h) rest
  let (extKind, rest) ← readExtension (headerKindSel h == 15) rest
  let (originator, destination, rest) ← readHeaderAddresses h rest
  let (kind, data, rest) ← readHeaderData h rest
  let span := dataSpan cfg.dataCrcSpan seq data rest
  let (dataCrc, rest) ← takeByte rest
  ensure (verify cfg span dataCrc) .dataChecksumMismatch
  let (count, rest) ← takeByte rest
  let (signalRaw, _) ← takeByte rest
  ensure (verify cfg seq e.trailer) .optionalChecksumMismatch
  .ok { addressControl := headerAddressControl h
        extHeader := extHeader
        extKind := extKind
        originatorId := originator
        destinationId := destination
        telegramKind := kind
        data := data
        subtelegramCount := count
        signalStrengthDbm := signalOfRaw signalRaw }

/-- PARSE_TELEGRAM (R180). -/
def execParseTelegram (e : Envelope) (s : State) : Host.Outcome State Fault Refusal :=
  answer (.telegram (parseTelegram s.cfg e)) s

end Sys2Proof.Machine
end

