-- ==== Sys2Proof/Machine/Pipeline.lean ====
section
/-!
DEFINITION. The consumer pipeline (spec/45_pipeline.md R240 to R244).
-/

namespace Sys2Proof.Machine

/-- What PIPE does after PARSE_TELEGRAM succeeded (R240). -/
def State.pipeTelegram (s : State) (frame : RawFrame) (t : Telegram) : State :=
  if s.cfg.decodersPresent then
    match dispatch s.cfg t with
    | .error e => s.rejectFrame e frame (some t)
    | .ok r => s.acceptFrame frame t (some r)
  else s.acceptFrame frame t none

/-- What PIPE does with a frame it has dequeued: it stops at the first stage that fails and emits
exactly one record (R240, R253). -/
def State.pipeFrame (s : State) (frame : RawFrame) : State :=
  match parseEnvelope s.cfg frame with
  | .error e => s.rejectFrame e frame none
  | .ok e =>
    match parseTelegram s.cfg e with
    | .error e => s.rejectFrame e frame none
    | .ok t => s.pipeTelegram frame t

/-- PIPE_STEP (R240). With an empty channel PIPE waits and nothing happens. -/
def execPipeStep (s : State) : Host.Outcome State Fault Refusal :=
  match s.chan with
  | [] => .next s
  | frame :: rest => .next ({ s with chan := rest }.pipeFrame frame)

end Sys2Proof.Machine
end

