-- ==== Sys2Proof/Machine/Dispatch.lean ====
section
/-!
DEFINITION. One arm for each operation of spec/opcode_table.json (spec/30_encoding.md R70).
-/

namespace Sys2Proof.Machine

def exec (i : Instr) (s : State) : Host.Outcome State Fault Refusal :=
  match i with
  | .crc8 bs => Sys2Proof.Machine.execCrc8 bs s
  | .verify bs expected => Sys2Proof.Machine.execVerify bs expected s
  | .asmWaitSync b => Sys2Proof.Machine.execAsmWaitSync b s
  | .asmLenHi b => Sys2Proof.Machine.execAsmLenHi b s
  | .asmLenLo b => Sys2Proof.Machine.execAsmLenLo b s
  | .asmOptLen b => Sys2Proof.Machine.execAsmOptLen b s
  | .asmBody b => Sys2Proof.Machine.execAsmBody b s
  | .parseEnvelope frame => Sys2Proof.Machine.execParseEnvelope frame s
  | .parseTelegram envelope => Sys2Proof.Machine.execParseTelegram envelope s
  | .decode1003 d => Sys2Proof.Machine.execDecode1003 d s
  | .decode0205 d => Sys2Proof.Machine.execDecode0205 d s
  | .decode0401 d => Sys2Proof.Machine.execDecode0401 d s
  | .decode0001 d => Sys2Proof.Machine.execDecode0001 d s
  | .decode0204 d => Sys2Proof.Machine.execDecode0204 d s
  | .decode pid telegram => Sys2Proof.Machine.execDecode pid telegram s
  | .normalizeId ident => Sys2Proof.Machine.execNormalizeId ident s
  | .directoryKey ident => Sys2Proof.Machine.execDirectoryKey ident s
  | .dispatch telegram => Sys2Proof.Machine.execDispatch telegram s
  | .pipeStep => Sys2Proof.Machine.execPipeStep s
  | .sync => Sys2Proof.Machine.execSync s
  | .syncBad b => Sys2Proof.Machine.execSyncBad b s
  | .ptRadio => Sys2Proof.Machine.execPtRadio s
  | .ptOther b => Sys2Proof.Machine.execPtOther b s
  | .ac000 h rest => Sys2Proof.Machine.execAc000 h rest s
  | .ac001 h rest => Sys2Proof.Machine.execAc001 h rest s
  | .ac010 h rest => Sys2Proof.Machine.execAc010 h rest s
  | .ac011 h rest => Sys2Proof.Machine.execAc011 h rest s
  | .acReserved h rest => Sys2Proof.Machine.execAcReserved h rest s
  | .xhAbsent h rest => Sys2Proof.Machine.execXhAbsent h rest s
  | .xhPresent h rest => Sys2Proof.Machine.execXhPresent h rest s
  | .kindRps h rest => Sys2Proof.Machine.execKindRps h rest s
  | .kindOneByte h rest => Sys2Proof.Machine.execKindOneByte h rest s
  | .kindFourByte h rest => Sys2Proof.Machine.execKindFourByte h rest s
  | .kindReserved h rest => Sys2Proof.Machine.execKindReserved h rest s
  | .kindExt h rest => Sys2Proof.Machine.execKindExt h rest s
  | .contactOpen => Sys2Proof.Machine.execContactOpen s
  | .contactClosed b => Sys2Proof.Machine.execContactClosed b s
  | .rockerBi b => Sys2Proof.Machine.execRockerBi b s
  | .rockerBo b => Sys2Proof.Machine.execRockerBo b s
  | .rockerAi b => Sys2Proof.Machine.execRockerAi b s
  | .rockerAo b => Sys2Proof.Machine.execRockerAo b s

end Sys2Proof.Machine
end

