-- ==== Sys2Proof/Machine/Fetch.lean ====
section
/-!
DEFINITION. What the machine does next: the turn it takes, the agents' enabling (spec/41_frame_assembler.md R120, R126, spec/45_pipeline.md R240, spec/60_exceptions.md R262) and the transaction it runs. Notes/assumptions/1.md says how turns stand for the interleaving of the agents.
-/

namespace Sys2Proof.Machine

/-- What the fetch finds. -/
inductive Fetched where
  /-- The turn is done with no operation: HOST acted, or no step was enabled. -/
  | settled (s : State)
  /-- An operation to decode and run, and the state it runs in. -/
  | run (t : Txn) (s : State)

/-- Whether the agents can step: reset has ended, the transport having been opened (R257, R282). -/
def State.agentsFree (s : State) : Bool := s.serialOpen

/-- Whether an ASM step is enabled: the agents are free, a byte waits, and R126 does not hold it
(R120). -/
def State.asmEnabled (s : State) : Bool := s.agentsFree && !s.byteIn.isEmpty && !s.asmHeld

/-- Whether a PIPE step is enabled: the agents are free and a frame waits (R240). -/
def State.pipeEnabled (s : State) : Bool := s.agentsFree && !s.chan.isEmpty

/-- The transaction of an ASM step: `asm_st` and the byte (R71, R120). -/
def asmTxn (st : AsmSt) (b : Byte) : Txn := ⟨.asmState, "", [st.code, b]⟩

/-- ASM's turn: an enabled step removes the head of BYTE_IN and runs (R120). -/
def fetchAsm (s : State) : Fetched :=
  if s.asmEnabled then
    match s.byteIn with
    | [] => .settled s
    | b :: rest => .run (asmTxn s.asmSt b) { s with byteIn := rest }
  else .settled s

/-- PIPE's turn: an enabled step runs (R240). -/
def fetchPipe (s : State) : Fetched :=
  if s.pipeEnabled then .run ⟨.pipeAgent, "", []⟩ s else .settled s

/-- One turn. HOST's turns do not wait for the transport: a direct call proceeds at any time (R286,
92 D7). That a byte still arrives on BYTE_IN, and a reset is still applied, while the transport is
not open is a DESIGN CHOICE (notes/assumptions/12.md). -/
def fetchTurn (t : Turn) (s : State) : Fetched :=
  match t with
  | .reset => .settled s.applyReset
  | .byte b => .settled { s with byteIn := s.byteIn ++ [b] }
  | .asm => fetchAsm s
  | .pipe => fetchPipe s
  | .call c text bytes => .run ⟨.call c, text, bytes⟩ s

/-- What comes next. With no turn listed an enabled agent steps, ASM first; with none enabled the
machine waits (R262, R264, notes/assumptions/1.md). With the transport not opened no agent's step
is ever enabled (R257, R282). -/
def fetch (s : State) : Fetched :=
  match s.turns with
  | [] => if s.asmEnabled then fetchAsm s else fetchPipe s
  | t :: ts => fetchTurn t { s with turns := ts }

/-- The buffer that an assembler state is reached with on zero bytes (R25): what setting `asm_st`
takes. -/
def asmPrefix (st : AsmSt) : List Byte :=
  match st with
  | .waitSync => []
  | .readLenHi => [0x55]
  | .readLenLo => [0x55, 0x00]
  | .readOptLen => [0x55, 0x00, 0x00]
  | .readBody => [0x55, 0x00, 0x00, 0x00]

/-- The assembler state of a code (R23). -/
def asmStOfCode (code : Byte) : AsmSt :=
  if code = 0x01 then .readLenHi
  else if code = 0x02 then .readLenLo
  else if code = 0x03 then .readOptLen
  else if code = 0x04 then .readBody
  else .waitSync

/-- Place a transaction where the next step fetches it: a call as the next turn; an operation of
ASM as the assembler's state with its buffer, its byte at the head of BYTE_IN and ASM's turn; a
PIPE step as PIPE's turn. An agent's step takes an opened transport. -/
def placeTxn (t : Txn) (s : State) : State :=
  match t.slot with
  | .call c => { s with turns := .call c t.text t.bytes :: s.turns }
  | .pipeAgent => { s with turns := .pipe :: s.turns, serialOpen := true }
  | .asmState =>
    { s with
      asmSt := asmStOfCode (t.bytes.headD 0x00)
      frameBuf := Memory.ofBytes (asmPrefix (asmStOfCode (t.bytes.headD 0x00)))
      byteIn := t.bytes.tail ++ s.byteIn
      turns := .asm :: s.turns
      serialOpen := true }

end Sys2Proof.Machine
end

