-- ==== Sys2Proof/Machine/Step.lean ====
section
/-!
DEFINITION. One step of the machine: fetch, decode, run.
-/

namespace Sys2Proof.Machine

/-- One step. -/
def step (s : State) : Host.Outcome State Fault Refusal :=
  match fetch s with
  | .settled s => .next s
  | .run t s =>
    match decode t with
    | .ok i => exec i s
    | .error e => .refused (.undecodable e)

/-- The state with a word of the table placed where `step` fetches next (notes/assumptions/3.md). -/
def State.withFetchWord (s : State) (nbits w : Nat) : State :=
  match tableTxn nbits w with
  | some t => placeTxn t s
  | none => s

end Sys2Proof.Machine
end

