-- ==== Sys2Proof/Safety.lean ====
section
/-!
DEFINITION. What counts as a good state and a good frame (spec/10_state.md R25, R27, spec/41_frame_assembler.md R125), and reference descriptions that claims compare the machine with, each written from its rule on its own.
-/

namespace Sys2Proof.Machine

/-- A frame as the assembler emits it (R125): it begins with 0x55, its length is the one its bytes
1 to 3 give, and it is at most `MAX_FRAME` long. -/
abbrev FrameOk (frame : RawFrame) : Prop :=
  frame[0]? = some 0x55 ∧ frameTotal frame = some frame.length ∧ frame.length ≤ maxFrame

/-- Whether a buffer is short of the frame it announces, and that frame short enough (R25). -/
def bodyOpen (buf : List Byte) : Bool :=
  match frameTotal buf with
  | none => false
  | some total => decide (buf.length < total) && decide (total ≤ maxFrame)

/-- The assembler invariant of R25, its six lines in order. -/
abbrev AssemblerInv (st : AsmSt) (buf : List Byte) : Prop :=
  (st = .waitSync ↔ buf.length = 0)
    ∧ (st = .readLenHi ↔ buf.length = 1)
    ∧ (st = .readLenLo ↔ buf.length = 2)
    ∧ (st = .readOptLen ↔ buf.length = 3)
    ∧ (st = .readBody ↔ 4 ≤ buf.length ∧ bodyOpen buf = true)
    ∧ (1 ≤ buf.length → buf[0]? = some 0x55)

/-- The channel holds at most FIFO_DEPTH frames (R27). -/
def State.chanWithin (s : State) : Bool :=
  match depthOf s.cfg.fifoDepth with
  | none => true
  | some d => decide (s.chan.length ≤ d)

/-- The invariant of the reachable states: the frame buffer holds a byte sequence from index 0
(R24, R52), the assembler invariant (R25), frames in the channel as the assembler emits them
(R125), no more of them than the channel holds (R27). -/
abbrev State.Inv (s : State) : Prop :=
  s.frameBuf = Memory.ofBytes s.asmBuf
    ∧ AssemblerInv s.asmSt s.asmBuf
    ∧ (∀ frame ∈ s.chan, FrameOk frame)
    ∧ s.chanWithin = true

/-- The operation that `asm_st` selects (R71). -/
def asmOperation (st : AsmSt) (b : Byte) : Instr :=
  match st with
  | .waitSync => .asmWaitSync b
  | .readLenHi => .asmLenHi b
  | .readLenLo => .asmLenLo b
  | .readOptLen => .asmOptLen b
  | .readBody => .asmBody b

/-- One doubling of the division that R100's pseudocode repeats. -/
def crcShift (r : Byte) : Byte := if r.getLsbD 7 then (r <<< 1) ^^^ 0x07 else r <<< 1

/-- The remainder `T[i]` by the pseudocode of R100. -/
def crcRemainder (i : Byte) : Byte :=
  crcShift (crcShift (crcShift (crcShift (crcShift (crcShift (crcShift (crcShift i)))))))

/-- The frame that an envelope was cut from, laid out by R73. -/
def frameOfEnvelope (cfg : Config) (e : Envelope) : RawFrame :=
  let hi := e.dataLength.extractLsb' 8 8
  let lo := e.dataLength.extractLsb' 0 8
  [0x55, hi, lo, e.optionalLength, e.packetType, crc8 cfg [hi, lo, e.optionalLength, e.packetType]]
    ++ e.payload ++ e.optional ++ [e.trailer]

/-- PARSE_TELEGRAM by the field offsets of R81 and the order of R180: no cursor, each field a slice
of `S` at its offset, each check in its place. -/
def telegramByOffsets (cfg : Config) (e : Envelope) : Except ErrorName Telegram :=
  let s := e.payload ++ e.optional
  let h := s.getD 0 0x00
  let ac := (h >>> 5).toNat
  let ks := (h &&& 0x0F).toNat
  let x := if h &&& 0x10 = 0x10 then 1 else 0
  let k := if ks = 15 then 1 else 0
  let ow := if ac = 0 then 3 else if ac = 3 then 6 else 4
  let dw := if ac = 2 then 4 else 0
  let dn := if ks = 2 then 4 else 1
  let offOrig := 1 + x + k
  let offDest := offOrig + ow
  let offData := offOrig + ow + dw
  let offCrc := offData + dn
  let data := (s.drop offData).take dn
  let span := if cfg.dataCrcSpan = .dataField then data else s.take offCrc
  if e.dataLength.toNat ≤ 6 then .error .unsupportedShortTelegram
  else if s.length < offOrig then .error .telegramTruncated
  else if 4 ≤ ac then .error .unsupportedAddressControl
  else if s.length < offData then .error .telegramTruncated
  else if 3 ≤ ks then .error .unsupportedTelegramKind
  else if s.length < offCrc + 1 then .error .telegramTruncated
  else if crc8 cfg span ≠ s.getD offCrc 0x00 then .error .dataChecksumMismatch
  else if s.length < offCrc + 3 then .error .telegramTruncated
  else if crc8 cfg s ≠ e.trailer then .error .optionalChecksumMismatch
  else .ok {
    addressControl := BitVec.ofNat 3 ac
    extHeader := if x = 1 then s[1]? else none
    extKind := none
    originatorId := (s.drop offOrig).take ow
    destinationId := if dw = 4 then some ((s.drop offDest).take 4) else none
    telegramKind := if ks = 0 then .rps else if ks = 1 then .oneByte else .fourByte
    data := data
    subtelegramCount := s.getD (offCrc + 1) 0x00
    signalStrengthDbm := BitVec.ofInt 16 (-((s.getD (offCrc + 2) 0x00).toNat : Int)) }

/-- What HOST does to feed one group of bytes: they arrive, then ASM has a turn for each (R86
`FEED`, R129). -/
def feedGroup (bs : List Byte) : List Turn := bs.map Turn.byte ++ List.replicate bs.length Turn.asm

/-- Whether a turn is a direct call. -/
def Turn.isCall : Turn → Bool
  | .call _ _ _ => true
  | _ => false

end Sys2Proof.Machine
end

