-- ==== Sys2Proof/Certificates/Slice0/Obligations.lean ====
section
/-!
DEFINITION. The statements for the provers. Each docstring names the rules of spec/ it rests on.
-/

open Sys2Proof Sys2Proof.Machine

/-- One transaction of each family, its bits written out from the table, decodes to the operation of its
row. The slots and the operand form are the model's (log 4). (30_encoding.md §1 R71, 30_encoding.md
R77, R85, opcode_table.json.) -/
def Obligations.WrittenWordsDecode : Prop :=
  decode ⟨.asmState, "", [0b00000011, 0x02]⟩ = .ok (.asmOptLen 0x02)
    ∧ decode ⟨.call .crc8, "", [0x00, 0x0A, 0x02, 0x0A]⟩ = .ok (.crc8 [0x00, 0x0A, 0x02, 0x0A])
    ∧ decode ⟨.call .profile, "10-03", [0x00, 0x98, 0xC1, 0x08]⟩ = .ok (.decode1003 [0x00, 0x98, 0xC1, 0x08])
    ∧ decode ⟨.call .frameByte0, "", [0b01010101]⟩ = .ok .sync
    ∧ decode ⟨.call .frameByte4, "", [0b00001010]⟩ = .ok .ptRadio
    ∧ decode ⟨.call .headerAddress, "", [0b01000000, 0x01]⟩ = .ok (.ac010 0x40 [0x01])
    ∧ decode ⟨.call .headerExt, "", [0b01110001, 0x0F]⟩ = .ok (.xhPresent 0x71 [0x0F])
    ∧ decode ⟨.call .headerKind, "", [0b01110001, 0x08]⟩ = .ok (.kindOneByte 0x71 [0x08])
    ∧ decode ⟨.call .contactCode, "", [0b00001001]⟩ = .ok (.contactClosed 0x09)
    ∧ decode ⟨.call (.rockerCode .bo), "", [0b10000101]⟩ = .ok (.rockerBo 0x85)
    ∧ decode ⟨.pipeAgent, "", []⟩ = .ok .pipeStep

/-- For every well-formed operation, decode of its encoding is that operation, with every operand at
every value it may have. The form of operands that are records is the model's (log 4).
(30_encoding.md R71, R72, 30_encoding.md R77, 10_state.md R33, R34.) -/
def Obligations.DecodeEncodeRoundTrip : Prop :=
  ∀ i : Instr, i.wf = true → decode (encode i) = .ok i

/-- Whatever transaction decodes to an operation, the operation is well formed and its encoding is that
transaction, so that no bit of a transaction is dropped and no two transactions mean one operation.
The form of operands is the model's (log 4). (30_encoding.md R71, R72, 30_encoding.md R77,
10_state.md R33, R34.) -/
def Obligations.EncodeDecodeRoundTrip : Prop :=
  ∀ (t : Txn) (i : Instr), decode t = .ok i → i.wf = true ∧ encode i = t

/-- On a call turn whose transaction decodes to i, step is exec of i with the turn taken, whether or not
the transport is open, as R286 lets a call proceed at any time. With the transport open: on ASM's
turn with a byte waiting and no hold, step is exec of the operation asm_st selects on that byte, the
byte removed; on PIPE's turn with a frame waiting, step is exec of PIPE_STEP. The list of turns, and
the calls that R72 gives no port, are the model's (log 1, log 6, log 12). (30_encoding.md R71,
41_frame_assembler.md R120, 45_pipeline.md R240, 60_exceptions.md R262, 70_reset_and_hazards.md
R286.) -/
def Obligations.StepRunsDecodedOperation : Prop :=
  ∀ s : State,
    (∀ c text bytes ts i, s.turns = .call c text bytes :: ts → decode ⟨.call c, text, bytes⟩ = .ok i →
        step s = exec i { s with turns := ts })
    ∧ (∀ b bs ts, s.serialOpen = true → s.turns = .asm :: ts → s.byteIn = b :: bs → s.asmHeld = false →
        decode (asmTxn s.asmSt b) = .ok (asmOperation s.asmSt b)
          ∧ step s = exec (asmOperation s.asmSt b) { s with turns := ts, byteIn := bs })
    ∧ (∀ ts, s.serialOpen = true → s.turns = .pipe :: ts → s.chan ≠ [] →
        decode ⟨.pipeAgent, "", []⟩ = .ok .pipeStep ∧ step s = exec .pipeStep { s with turns := ts })

/-- The model's choice of log 1 for an empty list of turns: ASM steps if a byte waits and no hold
applies; otherwise PIPE steps if a frame waits; otherwise nothing changes. (60_exceptions.md R262,
R264, 41_frame_assembler.md R120, 45_pipeline.md R240.) -/
def Obligations.UnscheduledTurnGoesToAsmThenPipe : Prop :=
  ∀ s : State, s.serialOpen = true → s.turns = [] →
    (∀ b bs, s.byteIn = b :: bs → s.asmHeld = false →
        step s = exec (asmOperation s.asmSt b) { s with byteIn := bs })
    ∧ (s.byteIn = [] ∨ s.asmHeld = true → s.chan ≠ [] → step s = exec .pipeStep s)
    ∧ (s.byteIn = [] ∨ s.asmHeld = true → s.chan = [] → step s = .next s)

/-- ASM's turn with an empty BYTE_IN, under the hold or with the transport not open, and PIPE's turn
with an empty channel or with the transport not open, leave every field but the list of turns as it
was. That such a turn passes is the model's choice (log 1, log 12, log 18). (41_frame_assembler.md
R120, R126, 45_pipeline.md R240, 60_exceptions.md R257, R262.) -/
def Obligations.TurnWithoutEnabledStepChangesNothing : Prop :=
  ∀ (s : State) (ts : List Turn),
    (s.turns = .asm :: ts → (s.byteIn = [] ∨ s.asmHeld = true ∨ s.serialOpen = false) →
        step s = .next { s with turns := ts })
    ∧ (s.turns = .pipe :: ts → (s.chan = [] ∨ s.serialOpen = false) → step s = .next { s with turns := ts })

/-- On a reset turn asm_st becomes WaitSync, the frame buffer, the channel and the trace become empty;
the constant state and the bytes on BYTE_IN stay, and no record is emitted (R280, R281). That a
reset is a turn, and that it keeps the last result, the records already emitted and the remaining
turns, is the model's choice (log 1, log 13); so is that it acts also with the transport not open
(log 12). (70_reset_and_hazards.md R280, 70_reset_and_hazards.md R281.) -/
def Obligations.ResetTurnRestoresResetValues : Prop :=
  ∀ (s : State) (ts : List Turn), s.turns = .reset :: ts →
    step s = .next { s with asmSt := .waitSync, frameBuf := [], chan := [], trace := [], turns := ts }

/-- With any parameters, as reset ends asm_st is WaitSync, asm_buf, asm_len, chan and trace are empty or
0, and the constant state is the one loaded; State.reset is that state with the default parameters.
(R37.) -/
def Obligations.ResetStateHoldsResetValues : Prop :=
  (∀ (cfg : Config) (opened : Bool),
      (State.boot cfg opened).asmSt = .waitSync ∧ (State.boot cfg opened).asmBuf = []
        ∧ (State.boot cfg opened).asmLen = 0 ∧ (State.boot cfg opened).chan = []
        ∧ (State.boot cfg opened).trace = [] ∧ (State.boot cfg opened).cfg = cfg)
    ∧ State.reset = State.boot defaultConfig true

/-- CRC8 on any byte sequence answers the value got from CRC8_INIT by replacing c with T[c XOR b] for
each byte b in order; nothing else changes. (R101.) -/
def Obligations.Crc8ReturnsFoldOfTable : Prop :=
  ∀ (bs : List Byte) (s : State),
    exec (.crc8 bs) s = .next { s with lastResult := some (.u8
      (bs.foldl (fun c b => s.cfg.crcTable.toList.getD (c ^^^ b).toNat 0x00) s.cfg.crcInit)) }

/-- VERIFY answers true exactly when CRC8 of the sequence is the expected byte, and so always for a
sequence with its own checksum, whatever the table holds; a mismatch is no error; nothing else
changes. (R102, R103.) -/
def Obligations.VerifyReturnsComparison : Prop :=
  ∀ (bs : List Byte) (e : Byte) (s : State),
    exec (.verify bs e) s = .next { s with lastResult := some (.boolean (decide (crc8 s.cfg bs = e))) }
      ∧ exec (.verify bs (crc8 s.cfg bs)) s = .next { s with lastResult := some (.boolean true) }

/-- For every index i, T[i] of the default table is i doubled eight times modulo the polynomial 0x07,
most significant bit first. The table is from general knowledge (log 14). (40_crc8.md R100,
93_implementation_defined.md G1.) -/
def Obligations.CrcTableHoldsRemainders : Prop :=
  ∀ i : Byte, rom defaultConfig i = crcRemainder i

/-- With the table of R100, CRC8(b ++ [CRC8(b)]) is 0x00 for every b. A property of the table that the
spec derives. (40_crc8.md R105.) -/
def Obligations.ResidueOfCheckedSequenceIsZero : Prop :=
  ∀ (cfg : Config) (bs : List Byte), cfg.crcTable = crcTable →
    crc8 cfg (bs ++ [crc8 cfg bs]) = 0x00

/-- With the table of R100, if one byte of a sequence is replaced by another value, VERIFY against the
checksum of the original is false, wherever the byte stands. Derived: the table is a permutation.
(40_crc8.md R100, R101, R102.) -/
def Obligations.OneCorruptedByteFailsVerify : Prop :=
  ∀ (cfg : Config) (before after : List Byte) (x y : Byte), cfg.crcTable = crcTable → x ≠ y →
    verify cfg (before ++ y :: after) (crc8 cfg (before ++ x :: after)) = false

/-- With an empty buffer, ASM_WAITSYNC on 0x55 leaves the buffer [55] and asm_st ReadLenHi; on any other
byte it records Discard(b), stays in WaitSync and changes nothing else. (R121.) -/
def Obligations.WaitSyncStartsOrDiscards : Prop :=
  (∀ s : State, s.frameBuf = [] →
      exec (.asmWaitSync 0x55) s = .next { s with frameBuf := [(0, 0x55)], asmSt := .readLenHi })
    ∧ (∀ (s : State) (b : Byte), b ≠ 0x55 →
      exec (.asmWaitSync b) s = .next { s with trace := s.trace ++ [.discard b], asmSt := .waitSync })

/-- On a buffer that holds the sequence bs with room for a byte, ASM_LENHI appends b and goes to
ReadLenLo, ASM_LENLO appends b and goes to ReadOptLen; nothing else changes. 0x55 is a length byte
like any other. (R122, R123.) -/
def Obligations.LengthBytesAreAppended : Prop :=
  ∀ (s : State) (bs : List Byte) (b : Byte), s.frameBuf = Memory.ofBytes bs → bs.length < 65535 →
    exec (.asmLenHi b) s = .next { s with frameBuf := Memory.ofBytes (bs ++ [b]), asmSt := .readLenLo }
      ∧ exec (.asmLenLo b) s = .next { s with frameBuf := Memory.ofBytes (bs ++ [b]), asmSt := .readOptLen }

/-- On the buffer [x, hi, lo], ASM_OPTLEN with byte b appends b; if 6 + 256*hi + lo + b + 1 is at most
65535 it goes to ReadBody; otherwise it records FramingError of the four bytes, clears the buffer
and returns to WaitSync. Nothing else changes. (R124.) -/
def Obligations.OptLenAcceptsOrDropsHeader : Prop :=
  ∀ (s : State) (x hi lo b : Byte), s.frameBuf = Memory.ofBytes [x, hi, lo] →
    (6 + (256 * hi.toNat + lo.toNat) + b.toNat + 1 ≤ 65535 →
        exec (.asmOptLen b) s = .next { s with frameBuf := Memory.ofBytes [x, hi, lo, b], asmSt := .readBody })
    ∧ (65535 < 6 + (256 * hi.toNat + lo.toNat) + b.toNat + 1 →
        exec (.asmOptLen b) s = .next { s with
          frameBuf := [], asmSt := .waitSync, trace := s.trace ++ [.framingError [x, hi, lo, b]] })

/-- On a buffer of at least 4 bytes that announces n <= 65535 bytes: a byte that leaves it shorter than
n is appended, asm_st staying ReadBody; the byte that makes it n long puts the whole buffer into a
channel with room, clears the buffer and returns to WaitSync; on a full channel under DROP_OLDEST
the head of the channel is lost and traced first. (R125.) -/
def Obligations.BodyAppendsOrEmitsFrame : Prop :=
  ∀ (s : State) (bs : List Byte) (b : Byte) (n : Nat),
    s.frameBuf = Memory.ofBytes bs → 4 ≤ bs.length → frameTotal bs = some n → n ≤ 65535 →
    (bs.length + 1 < n →
        exec (.asmBody b) s = .next { s with frameBuf := Memory.ofBytes (bs ++ [b]), asmSt := .readBody })
    ∧ (bs.length + 1 = n → s.chanHasRoom = true →
        exec (.asmBody b) s = .next { s with
          frameBuf := [], asmSt := .waitSync, chan := s.chan ++ [bs ++ [b]] })
    ∧ (∀ oldest rest, bs.length + 1 = n → s.chanHasRoom = false → s.cfg.fifoPolicy = .dropOldest →
        s.chan = oldest :: rest →
        exec (.asmBody b) s = .next { s with
          frameBuf := [], asmSt := .waitSync, chan := rest ++ [bs ++ [b]],
          trace := s.trace ++ [.frameDropped oldest] })

/-- With fewer than FIFO_DEPTH frames waiting, or an unbounded channel, a frame is enqueued; otherwise
under DROP_OLDEST the head is dropped and traced and the frame enqueued. Under BLOCK_PRODUCER, while
asm_st is ReadBody, the next byte would complete the frame and the channel holds FIFO_DEPTH frames,
ASM's turn changes nothing; once a PIPE step has taken a frame the hold is gone. That ASM's turn
under the hold passes with only the turn taken is the model's choice (log 18) on its list of turns
(log 1); bounded n stands for a FIFO_DEPTH of n + 1 (log 21). (41_frame_assembler.md R126.) -/
def Obligations.DeliverFollowsFullPolicy : Prop :=
  (∀ (s : State) (f : RawFrame), s.cfg.fifoDepth = .unbounded →
      s.deliver f = .ok { s with chan := s.chan ++ [f] })
    ∧ (∀ (s : State) (f : RawFrame) (n : Nat), s.cfg.fifoDepth = .bounded n → s.chan.length < n + 1 →
      s.deliver f = .ok { s with chan := s.chan ++ [f] })
    ∧ (∀ (s : State) (f oldest : RawFrame) (rest : List RawFrame) (n : Nat), s.cfg.fifoDepth = .bounded n →
      s.cfg.fifoPolicy = .dropOldest → s.chan = oldest :: rest → n + 1 ≤ s.chan.length →
      s.deliver f = .ok { s with chan := rest ++ [f], trace := s.trace ++ [.frameDropped oldest] })
    ∧ (∀ (s : State) (n : Nat) (ts : List Turn), s.serialOpen = true → s.cfg.fifoDepth = .bounded n →
      s.cfg.fifoPolicy = .blockProducer → s.asmSt = .readBody → s.frameBuf.total = some (s.asmLen + 1) →
      s.chan.length = n + 1 →
      (s.turns = .asm :: ts → step s = .next { s with turns := ts })
        ∧ ∀ t, exec .pipeStep s = .next t → t.asmHeld = false)

/-- When ASM_WAITSYNC, ASM_LENHI, ASM_LENLO, ASM_OPTLEN or ASM_BODY answers a next state: BYTE_IN, the
records, the last result, the turns, the constant state and the transport are unchanged; if the
frame goes on, the byte stands at index asm_len, every other address reads as before, and channel
and trace are unchanged; otherwise a discarded byte leaves every address as it was, and in every
other case nothing is readable; only ASM_BODY changes the channel. (20_memory.md R50, R52,
41_frame_assembler.md R121 to R125, 20_memory.md R60.) -/
def Obligations.AssemblerFrame : Prop :=
  ∀ (s t : State) (i : Instr) (b : Byte),
    (i = .asmWaitSync b ∨ i = .asmLenHi b ∨ i = .asmLenLo b ∨ i = .asmOptLen b ∨ i = .asmBody b) →
    exec i s = .next t →
    (t.byteIn = s.byteIn ∧ t.resultOut = s.resultOut ∧ t.lastResult = s.lastResult ∧ t.turns = s.turns
        ∧ t.cfg = s.cfg ∧ t.serialOpen = s.serialOpen)
      ∧ (t.asmSt ≠ .waitSync →
          t.frameBuf.read s.asmLen = some b ∧ (∀ a, a ≠ s.asmLen → t.frameBuf.read a = s.frameBuf.read a)
            ∧ t.chan = s.chan ∧ t.trace = s.trace)
      ∧ (t.asmSt = .waitSync →
          (i = .asmWaitSync b ∧ b ≠ 0x55 ∧ ∀ a, t.frameBuf.read a = s.frameBuf.read a)
            ∨ (i ≠ .asmWaitSync b ∧ ∀ a, t.frameBuf.read a = none))
      ∧ (i ≠ .asmBody b → t.chan = s.chan)

/-- From every state whose frame buffer lists strictly rising indices below 65535, a step leads to such
a state. The cell form is the model's (log 8). (20_memory.md R50, R52.) -/
def Obligations.StepKeepsMemoryCanonical : Prop :=
  ∀ s t : State, s.frameBuf.wf = true → step s = .next t → t.frameBuf.wf = true

/-- From every state in which the buffer is a byte sequence from index 0, asm_st and the buffer agree as
R25 says, every frame in the channel is as the assembler emits frames and the channel holds at most
FIFO_DEPTH of them, a step leads to such a state. (10_state.md R25, R27, 41_frame_assembler.md R125,
20_memory.md R52.) -/
def Obligations.StepKeepsStateInvariant : Prop :=
  ∀ s t : State, s.Inv → step s = .next t → t.Inv

/-- As reset ends the invariant of R25 and R27 holds and the frame buffer is in canonical form, whatever
the parameters. (10_state.md R25, R37.) -/
def Obligations.ResetStateMeetsInvariant : Prop :=
  (∀ (cfg : Config) (opened : Bool), (State.boot cfg opened).Inv)
    ∧ State.reset.Inv ∧ State.reset.frameBuf.wf = true

/-- Whatever step is taken, DEVICE_DIRECTORY, with the rest of the constant state and the parameters, is
afterwards what it was; it is supplied with the state reset ends in. (R9.) -/
def Obligations.StepKeepsConfiguration : Prop :=
  (∀ s t : State, step s = .next t → t.cfg = s.cfg)
    ∧ ∀ (cfg : Config) (opened : Bool), (State.boot cfg opened).cfg = cfg

/-- With the transport not open it stays so, no record is ever emitted, and the assembler's state, its
buffer, the channel and the trace change on a reset turn at most; an agent's turn leaves everything
but the turns as it was, and with no turn the state stays as it is. From every state that meets the
invariant, with the transport open or not, no step ends in a fault. R257 says that neither agent
steps; that their turns pass, and that a byte or a reset still takes effect, is the model's choice
(log 12, log 18, on log 1's turn list). (60_exceptions.md R257, 70_reset_and_hazards.md R282, R286.) -/
def Obligations.OnlyUnopenedTransportIsFatal : Prop :=
  (∀ s t : State, s.serialOpen = false → step s = .next t →
      t.serialOpen = false ∧ t.resultOut = s.resultOut
        ∧ ((∀ ts, s.turns ≠ .reset :: ts) →
          t.asmSt = s.asmSt ∧ t.frameBuf = s.frameBuf ∧ t.chan = s.chan ∧ t.trace = s.trace))
    ∧ (∀ (s : State) (ts : List Turn), s.serialOpen = false → (s.turns = .asm :: ts ∨ s.turns = .pipe :: ts) →
      step s = .next { s with turns := ts })
    ∧ (∀ s : State, s.serialOpen = false → s.turns = [] → step s = .next s)
    ∧ ∀ (s : State) (f : Fault), s.Inv → step s ≠ .fault f

/-- Whenever a step is refused, the turn was a direct call whose transaction does not decode, and the
refusal carries that reason: no operation of the table is refused. (30_encoding.md R71, R72,
60_exceptions.md R259.) -/
def Obligations.OnlyUndecodableCallsAreRefused : Prop :=
  (∀ (s : State) (r : Refusal), step s = .refused r →
      ∃ c text bytes ts e, s.turns = .call c text bytes :: ts
        ∧ decode ⟨.call c, text, bytes⟩ = .error e ∧ r = .undecodable e)
    ∧ ∀ (i : Instr) (s : State) (r : Refusal), exec i s ≠ .refused r

/-- From WaitSync with an empty buffer and room in the channel, feeding the bytes of a frame in any list
of groups, where each group arrives and then ASM has one turn per byte, ends after exactly these
steps with the channel grown by that frame, the buffer empty and WaitSync, and nothing else changed.
The list of turns is the model's (log 1). (41_frame_assembler.md R129, 41_frame_assembler.md R120,
R125.) -/
def Obligations.SplitFeedEmitsFrameOnce : Prop :=
  ∀ (s : State) (groups : List (List Byte)) (ts : List Turn),
    s.serialOpen = true → s.asmSt = .waitSync → s.frameBuf = [] → s.byteIn = [] → s.chanHasRoom = true →
    FrameOk groups.flatten → s.turns = groups.flatMap feedGroup ++ ts →
    Host.Core.run Sys2Proof.core (2 * groups.flatten.length) s
      = .next { s with chan := s.chan ++ [groups.flatten], turns := ts }

/-- In WaitSync, a run of bytes none of which is 0x55 is consumed one byte a step; each leaves a Discard
event and nothing else changes. (41_frame_assembler.md R128 item 1, 41_frame_assembler.md R121.) -/
def Obligations.GarbageBeforeSyncIsDiscarded : Prop :=
  ∀ (s : State) (bs rest : List Byte) (ts : List Turn),
    s.serialOpen = true → s.asmSt = .waitSync → (∀ b ∈ bs, b ≠ 0x55) → s.byteIn = bs ++ rest →
    s.turns = List.replicate bs.length .asm ++ ts →
    Host.Core.run Sys2Proof.core bs.length s
      = .next { s with byteIn := rest, turns := ts, trace := s.trace ++ bs.map .discard }

/-- From WaitSync with an empty buffer, a sync byte and three bytes that announce more than 65535 bytes
leave, after four ASM steps, one FramingError event, an empty buffer and WaitSync, also where one of
the three is 0x55. (41_frame_assembler.md R130, 41_frame_assembler.md R124.) -/
def Obligations.OversizeHeaderIsDiscardedWhole : Prop :=
  ∀ (s : State) (hi lo ol : Byte) (rest : List Byte) (ts : List Turn),
    s.serialOpen = true → s.asmSt = .waitSync → s.frameBuf = [] →
    65535 < 6 + (256 * hi.toNat + lo.toNat) + ol.toNat + 1 →
    s.byteIn = 0x55 :: hi :: lo :: ol :: rest → s.turns = List.replicate 4 .asm ++ ts →
    Host.Core.run Sys2Proof.core 4 s
      = .next { s with byteIn := rest, turns := ts, trace := s.trace ++ [.framingError [0x55, hi, lo, ol]] }

/-- Under DROP_OLDEST, from every state that meets the invariant, with enough bytes waiting, ASM is in
WaitSync after at most 65531 further bytes if it was in the body of a frame, and after at most 65534
if it was elsewhere. R127 gives 65531 for every state; log 17 says why the header states need up to
three bytes more. (41_frame_assembler.md R127, 41_frame_assembler.md R124.) -/
def Obligations.AssemblerResynchronises : Prop :=
  ∀ (s : State) (n : Nat) (ts : List Turn),
    s.Inv → s.serialOpen = true → s.cfg.fifoPolicy = .dropOldest →
    n = (if s.asmSt = .readBody then 65531 else 65534) → n ≤ s.byteIn.length →
    s.turns = List.replicate n .asm ++ ts →
    ∃ (k : Nat) (t : State), k ≤ n ∧ Host.Core.run Sys2Proof.core k s = .next t ∧ t.asmSt = .waitSync

/-- On any byte sequence PARSE_ENVELOPE answers, in this order: TooShort under 6 bytes, BadSync,
HeaderChecksumMismatch over bytes 1 to 4, UnsupportedPacketType, LengthMismatch, OversizedFrame, or
the Envelope with its length fields, payload, optional section and trailer cut at their offsets;
nothing else changes. (R150, R151, R152, R153, R154, R155, R156, R157, R158.) -/
def Obligations.ParseEnvelopeChecksInOrder : Prop :=
  ∀ (f : RawFrame) (s : State),
    exec (.parseEnvelope f) s = .next { s with lastResult := some (.envelope (
      let dl := 256 * (f.getD 1 0x00).toNat + (f.getD 2 0x00).toNat
      let ol := (f.getD 3 0x00).toNat
      if f.length < 6 then .error .tooShort
      else if f.getD 0 0x00 ≠ 0x55 then .error .badSync
      else if crc8 s.cfg ((f.drop 1).take 4) ≠ f.getD 5 0x00 then .error .headerChecksumMismatch
      else if f.getD 4 0x00 ≠ 10 then .error .unsupportedPacketType
      else if f.length ≠ 6 + dl + ol + 1 then .error .lengthMismatch
      else if 65535 < f.length then .error .oversizedFrame
      else .ok {
        dataLength := BitVec.ofNat 16 dl
        optionalLength := f.getD 3 0x00
        packetType := 10
        payload := (f.drop 6).take dl
        optional := (f.drop (6 + dl)).take ol
        trailer := f.getD (6 + dl + ol) 0x00 })) }

/-- If a frame is as the assembler emits frames and PARSE_ENVELOPE fails on it, the error is
HeaderChecksumMismatch or UnsupportedPacketType. (42_envelope_parser.md R159.) -/
def Obligations.AssembledFrameFailsOnlyTwoWays : Prop :=
  ∀ (cfg : Config) (f : RawFrame) (e : ErrorName), FrameOk f → parseEnvelope cfg f = .error e →
    e = .headerChecksumMismatch ∨ e = .unsupportedPacketType

/-- For every envelope with matching section lengths, packet type 10 and a total of at most 65535 bytes,
PARSE_ENVELOPE of the frame laid out by R73 is that envelope. (30_encoding.md R73,
42_envelope_parser.md R150.) -/
def Obligations.EnvelopeOfLaidOutFrame : Prop :=
  ∀ (cfg : Config) (e : Envelope), e.wf = true → e.packetType = 10 →
    6 + e.dataLength.toNat + e.optionalLength.toNat + 1 ≤ 65535 →
    parseEnvelope cfg (frameOfEnvelope cfg e) = .ok e

/-- On any envelope PARSE_TELEGRAM answers what the reference description by offsets gives: each field
the slice of payload ++ optional at its offset, each error where its check stands, with either value
of DATA_CRC_SPAN; nothing else changes. (43_telegram_parser.md R180, 30_encoding.md R81.) -/
def Obligations.ParseTelegramMatchesFieldOffsets : Prop :=
  ∀ (e : Envelope) (s : State),
    exec (.parseTelegram e) s = .next { s with lastResult := some (.telegram (telegramByOffsets s.cfg e)) }

/-- If data_length is at most 6, PARSE_TELEGRAM answers UnsupportedShortTelegram whatever the rest of
the envelope holds. (R181.) -/
def Obligations.ShortTelegramIsRejected : Prop :=
  ∀ (e : Envelope) (s : State), e.dataLength.toNat ≤ 6 →
    exec (.parseTelegram e) s
      = .next { s with lastResult := some (.telegram (.error .unsupportedShortTelegram)) }

/-- If PARSE_TELEGRAM succeeds, the selector is 0 to 3, the originator has 3, 4 or 6 bytes, a
destination has 4, the data has the length its kind gives, the signal lies in -255 to 0, ext_kind is
absent, and the header byte does not hold the extended-kind sentinel 0b1111. (10_state.md R34,
43_telegram_parser.md R193, R196, 90_conflicts.md C4.) -/
def Obligations.ParsedTelegramHasItsShape : Prop :=
  ∀ (cfg : Config) (e : Envelope) (t : Telegram), parseTelegram cfg e = .ok t →
    t.wf = true ∧ t.extKind = none
      ∧ ∀ (h : Byte) (tail : List Byte), e.payload ++ e.optional = h :: tail → h &&& 0x0F ≠ 0x0F

/-- For every raw byte the signal strength, read as signed, is minus the byte's value, and so lies in
-255 to 0; raw 0x2D gives -45 and raw 0x00 gives 0. (R82.) -/
def Obligations.SignalStrengthIsNegatedByte : Prop :=
  (∀ raw : Byte, (signalOfRaw raw).toInt = -(raw.toNat : Int)
      ∧ -255 ≤ (signalOfRaw raw).toInt ∧ (signalOfRaw raw).toInt ≤ 0)
    ∧ (signalOfRaw 0x2D).toInt = -45 ∧ (signalOfRaw 0x00).toInt = 0

/-- SYNC and PT_RADIO answer that the check passes; SYNC_BAD on any byte but 0x55 answers BadSync and
PT_OTHER on any byte but 10 answers UnsupportedPacketType; nothing else changes. Running a row on
its own is the model's (log 6). (R74, R75, R152, R155, opcode_table.json rows SYNC to PT_OTHER.) -/
def Obligations.FrameByteRowsPassOrFail : Prop :=
  ∀ s : State,
    exec .sync s = .next { s with lastResult := some (.fieldCheck (.ok ())) }
      ∧ exec .ptRadio s = .next { s with lastResult := some (.fieldCheck (.ok ())) }
      ∧ (∀ b : Byte, b ≠ 0x55 →
          exec (.syncBad b) s = .next { s with lastResult := some (.fieldCheck (.error .badSync)) })
      ∧ (∀ b : Byte, b ≠ 10 →
          exec (.ptOther b) s = .next { s with lastResult := some (.fieldCheck (.error .unsupportedPacketType)) })

/-- AC_000, AC_001 and AC_011 read an originator of 3, 4 and 6 bytes and no destination, AC_010 one of 4
bytes and a destination of 4, each TelegramTruncated where fewer bytes are left; AC_RESERVED answers
UnsupportedAddressControl; nothing else changes. Running a row on its own is the model's (log 6).
(R78, R185, R186, R194, opcode_table.json rows AC_000 to AC_RESERVED.) -/
def Obligations.AddressRowsReadTheirWidths : Prop :=
  (∀ (h : Byte) (rest : List Byte) (s : State), 3 ≤ rest.length →
      exec (.ac000 h rest) s = .next { s with lastResult := some (.addresses (.ok (rest.take 3, none, rest.drop 3))) })
    ∧ (∀ (h : Byte) (rest : List Byte) (s : State), 4 ≤ rest.length →
      exec (.ac001 h rest) s = .next { s with lastResult := some (.addresses (.ok (rest.take 4, none, rest.drop 4))) })
    ∧ (∀ (h : Byte) (rest : List Byte) (s : State), 8 ≤ rest.length →
      exec (.ac010 h rest) s = .next { s with lastResult := some (.addresses
        (.ok (rest.take 4, some ((rest.drop 4).take 4), rest.drop 8))) })
    ∧ (∀ (h : Byte) (rest : List Byte) (s : State), 6 ≤ rest.length →
      exec (.ac011 h rest) s = .next { s with lastResult := some (.addresses (.ok (rest.take 6, none, rest.drop 6))) })
    ∧ (∀ (i : Instr) (h : Byte) (rest : List Byte) (s : State),
      (i = .ac000 h rest ∧ rest.length < 3) ∨ (i = .ac001 h rest ∧ rest.length < 4)
        ∨ (i = .ac010 h rest ∧ rest.length < 8) ∨ (i = .ac011 h rest ∧ rest.length < 6) →
      exec i s = .next { s with lastResult := some (.addresses (.error .telegramTruncated)) })
    ∧ (∀ (h : Byte) (rest : List Byte) (s : State),
      exec (.acReserved h rest) s
        = .next { s with lastResult := some (.addresses (.error .unsupportedAddressControl)) })

/-- XH_ABSENT reads nothing; XH_PRESENT reads one byte of any value, or is TelegramTruncated where none
is left; nothing else changes. Running a row on its own is the model's (log 6). (R80, R183, R194,
opcode_table.json rows XH_ABSENT, XH_PRESENT.) -/
def Obligations.ExtendedHeaderRowsReadOneByteOrNone : Prop :=
  ∀ (h x : Byte) (rest : List Byte) (s : State),
    exec (.xhAbsent h rest) s = .next { s with lastResult := some (.extHeader (.ok (none, rest))) }
      ∧ exec (.xhPresent h (x :: rest)) s = .next { s with lastResult := some (.extHeader (.ok (some x, rest))) }
      ∧ exec (.xhPresent h []) s = .next { s with lastResult := some (.extHeader (.error .telegramTruncated)) }

/-- KIND_RPS and KIND_ONEBYTE read one data byte, KIND_FOURBYTE four, each TelegramTruncated where fewer
are left; KIND_RESERVED fails; KIND_EXT reads the extended-kind byte, then fails with the address
stage's error if it has one and else with UnsupportedTelegramKind; nothing else changes. Running a
row on its own is the model's (log 6). (R79, R187, R188, R194, R196, opcode_table.json rows KIND_RPS
to KIND_EXT.) -/
def Obligations.KindRowsReadTheirDataOrFail : Prop :=
  (∀ (h d : Byte) (rest : List Byte) (s : State),
      exec (.kindRps h (d :: rest)) s = .next { s with lastResult := some (.kindData (.ok (.rps, [d], rest))) }
        ∧ exec (.kindOneByte h (d :: rest)) s
          = .next { s with lastResult := some (.kindData (.ok (.oneByte, [d], rest))) }
        ∧ exec (.kindReserved h rest) s
          = .next { s with lastResult := some (.kindData (.error .unsupportedTelegramKind)) })
    ∧ (∀ (h a b c d : Byte) (rest : List Byte) (s : State),
      exec (.kindFourByte h (a :: b :: c :: d :: rest)) s
        = .next { s with lastResult := some (.kindData (.ok (.fourByte, [a, b, c, d], rest))) })
    ∧ (∀ (i : Instr) (h : Byte) (rest : List Byte) (s : State),
      (i = .kindRps h rest ∧ rest = []) ∨ (i = .kindOneByte h rest ∧ rest = [])
        ∨ (i = .kindFourByte h rest ∧ rest.length < 4) ∨ (i = .kindExt h rest ∧ rest = []) →
      exec i s = .next { s with lastResult := some (.kindData (.error .telegramTruncated)) })
    ∧ (∀ (h x : Byte) (rest : List Byte) (e : ErrorName) (s : State), readHeaderAddresses h rest = .error e →
      exec (.kindExt h (x :: rest)) s = .next { s with lastResult := some (.kindData (.error e)) })
    ∧ (∀ (h x : Byte) (rest : List Byte) (r : List Byte × Option (List Byte) × List Byte) (s : State),
      readHeaderAddresses h rest = .ok r →
      exec (.kindExt h (x :: rest)) s
        = .next { s with lastResult := some (.kindData (.error .unsupportedTelegramKind)) })

/-- CONTACT_OPEN answers open and CONTACT_CLOSED on any byte but 0x08 closed; each rocker row, on a byte
that has all bits of its mask, answers its label; nothing else changes. Running a row on its own is
the model's (log 6). (R224, R225, R85, opcode_table.json rows CONTACT_OPEN to ROCKER_AO.) -/
def Obligations.CodeRowsGiveContactAndLabels : Prop :=
  ∀ (b : Byte) (s : State),
    exec .contactOpen s = .next { s with lastResult := some (.contact .opened) }
      ∧ (b ≠ 0x08 → exec (.contactClosed b) s = .next { s with lastResult := some (.contact .closed) })
      ∧ (b &&& 0x88 = 0x88 → exec (.rockerBi b) s = .next { s with lastResult := some (.rocker [.bi]) })
      ∧ (b &&& 0x84 = 0x84 → exec (.rockerBo b) s = .next { s with lastResult := some (.rocker [.bo]) })
      ∧ (b &&& 0x82 = 0x82 → exec (.rockerAi b) s = .next { s with lastResult := some (.rocker [.ai]) })
      ∧ (b &&& 0x81 = 0x81 → exec (.rockerAo b) s = .next { s with lastResult := some (.rocker [.ao]) })

/-- Whatever the header byte, the row it decodes to in the extended-header, address-control or kind
field answers what the parser's stage for that field gives on the same bytes; for the kind field
this leaves the sentinel aside, which fails earlier or at that stage. Running a row on its own is
the model's (log 6). (30_encoding.md R77 to R80, R83, 43_telegram_parser.md R183, R185 to R188.) -/
def Obligations.ParserStagesFollowHeaderRows : Prop :=
  ∀ (h : Byte) (rest : List Byte) (i : Instr) (s : State),
    (decode ⟨.call .headerExt, "", h :: rest⟩ = .ok i →
        exec i s = .next { s with lastResult := some (.extHeader (readExtension (headerExtFlag h) rest)) })
      ∧ (decode ⟨.call .headerAddress, "", h :: rest⟩ = .ok i →
        exec i s = .next { s with lastResult := some (.addresses (readHeaderAddresses h rest)) })
      ∧ (decode ⟨.call .headerKind, "", h :: rest⟩ = .ok i → h &&& 0x0F ≠ 0x0F →
        exec i s = .next { s with lastResult := some (.kindData (readHeaderData h rest)) })

/-- On at least three data bytes DECODE_10_03, DECODE_02_05 and DECODE_04_01 answer the readings of
their formulas as exact rationals, unclamped; on fewer they answer MissingDataByte; nothing else
changes. (R221, R222, R223.) -/
def Obligations.TemperatureDecodersFollowFormulas : Prop :=
  (∀ (d0 d1 d2 : Byte) (ds : List Byte) (s : State),
      exec (.decode1003 (d0 :: d1 :: d2 :: ds)) s = .next { s with lastResult := some (.reading
          (.ok (.temperatureSoilMoisture ((255 - (d2.toNat : Rat)) * 40 / 255) d1))) }
        ∧ exec (.decode0205 (d0 :: d1 :: d2 :: ds)) s = .next { s with lastResult := some (.reading
          (.ok (.temperature ((255 - (d2.toNat : Rat)) * 40 / 255)))) }
        ∧ exec (.decode0401 (d0 :: d1 :: d2 :: ds)) s = .next { s with lastResult := some (.reading
          (.ok (.temperatureHumidity ((d2.toNat : Rat) / 250 * 40) ((d1.toNat : Rat) / 250 * 100)))) })
    ∧ (∀ (i : Instr) (d : List Byte) (s : State), d.length < 3 →
      (i = .decode1003 d ∨ i = .decode0205 d ∨ i = .decode0401 d) →
      exec i s = .next { s with lastResult := some (.reading (.error .missingDataByte)) })

/-- On a non-empty data sequence DECODE_00_01 answers open exactly when byte 0 is 0x08, and DECODE_02_04
the labels whose mask bits are all set in byte 0, in the order BI, BO, AI, AO; on an empty one both
answer MissingDataByte; nothing else changes. (R224, R225.) -/
def Obligations.ContactAndRockerDecodersReadFirstByte : Prop :=
  (∀ (d0 : Byte) (ds : List Byte) (s : State),
      exec (.decode0001 (d0 :: ds)) s = .next { s with lastResult := some (.reading
          (.ok (.contactState (if d0 = 0x08 then .opened else .closed)))) }
        ∧ exec (.decode0204 (d0 :: ds)) s = .next { s with lastResult := some (.reading
          (.ok (.rockerPresses
            (([(0x88, .bi), (0x84, .bo), (0x82, .ai), (0x81, .ao)] : List (Byte × RockerLabel)).filterMap
              fun (m, label) => if d0 &&& m = m then some label else none)))) })
    ∧ (∀ s : State,
      exec (.decode0001 []) s = .next { s with lastResult := some (.reading (.error .missingDataByte)) }
        ∧ exec (.decode0204 []) s = .next { s with lastResult := some (.reading (.error .missingDataByte)) })

/-- A temperature of profile 10-03 or 02-05 lies in 0 to 40; one of 04-01 in 0 to 204/5, and its
humidity in 0 to 102. (44_profile_decoders.md R221, R222, R223.) -/
def Obligations.ReadingsStayInRange : Prop :=
  (∀ (d : List Byte) (t : Rat) (p : Byte), decode1003 d = .ok (.temperatureSoilMoisture t p) → 0 ≤ t ∧ t ≤ 40)
    ∧ (∀ (d : List Byte) (t : Rat), decode0205 d = .ok (.temperature t) → 0 ≤ t ∧ t ≤ 40)
    ∧ (∀ (d : List Byte) (t r : Rat), decode0401 d = .ok (.temperatureHumidity t r) →
      0 ≤ t ∧ t ≤ 204 / 5 ∧ 0 ≤ r ∧ r ≤ 102)

/-- DECODE with one of the five profile ids answers that decoder's result on the telegram's data, and
with any other id UnsupportedModel; nothing else changes. (R220.) -/
def Obligations.DecodeRunsTheProfilesDecoder : Prop :=
  ∀ (t : Telegram) (s : State),
    exec (.decode "10-03" t) s = .next { s with lastResult := some (.reading (decode1003 t.data)) }
      ∧ exec (.decode "02-05" t) s = .next { s with lastResult := some (.reading (decode0205 t.data)) }
      ∧ exec (.decode "04-01" t) s = .next { s with lastResult := some (.reading (decode0401 t.data)) }
      ∧ exec (.decode "00-01" t) s = .next { s with lastResult := some (.reading (decode0001 t.data)) }
      ∧ exec (.decode "02-04" t) s = .next { s with lastResult := some (.reading (decode0204 t.data)) }
      ∧ ∀ pid : String, pid ∉ ["10-03", "02-05", "04-01", "00-01", "02-04"] →
        exec (.decode pid t) s = .next { s with lastResult := some (.reading (.error .unsupportedModel)) }

/-- A six-byte id that begins 00 00 gives its last four bytes; every other id is unchanged, also one of
three or four bytes that begins with zeros; nothing else changes. R227's Operands line gives ids of
3, 4 or 6 bytes; that its pseudocode holds at other lengths too is the model's inference (log 23).
(44_profile_decoders.md R227.) -/
def Obligations.NormalizeIdStripsZeroPair : Prop :=
  (∀ (a b c d : Byte) (s : State),
      exec (.normalizeId [0x00, 0x00, a, b, c, d]) s = .next { s with lastResult := some (.ident [a, b, c, d]) })
    ∧ (∀ (ident : List Byte) (s : State), ¬ (ident.length = 6 ∧ ident.take 2 = [0x00, 0x00]) →
      exec (.normalizeId ident) s = .next { s with lastResult := some (.ident ident) })

/-- The key has twice as many characters as the id has bytes, and for each byte, in wire order, its high
nibble's digit and then its low nibble's, from 0-9 a-f; nothing else changes. R228's Operands line
gives a normalised id; that its pseudocode holds for every other byte sequence too is the model's
inference (log 23). (44_profile_decoders.md R228.) -/
def Obligations.DirectoryKeyIsLowercaseHex : Prop :=
  ∀ (ident : List Byte) (s : State),
    ∃ key : String, exec (.directoryKey ident) s = .next { s with lastResult := some (.key key) }
      ∧ key.toList.length = 2 * ident.length
      ∧ ∀ (i : Nat) (b : Byte), ident[i]? = some b →
          key.toList[2 * i]? = "0123456789abcdef".toList[b.toNat / 16]?
            ∧ key.toList[2 * i + 1]? = "0123456789abcdef".toList[b.toNat % 16]?

/-- DIRECTORY_KEY forgets nothing: equal keys come from equal ids, of whatever lengths. For sequences
that are no normalised id it rests on the model's inference from R228's pseudocode (log 23).
(44_profile_decoders.md R228.) -/
def Obligations.DirectoryKeysAreDistinct : Prop :=
  ∀ a b : List Byte, keyOf a = keyOf b → a = b

/-- With key the directory key of the normalised originator: no entry gives UnmappedDevice; a label with
no profile gives UnsupportedModel; otherwise the answer is DECODE with that profile. A six-byte id
that begins 00 00 resolves as its last four bytes do. Nothing else changes. (R229.) -/
def Obligations.DispatchResolvesInOrder : Prop :=
  (∀ (t : Telegram) (s : State),
      s.cfg.deviceDirectory.lookup (keyOf (normalise t.originatorId)) = none →
      exec (.dispatch t) s = .next { s with lastResult := some (.reading (.error .unmappedDevice)) })
    ∧ (∀ (t : Telegram) (s : State) (label : String),
      s.cfg.deviceDirectory.lookup (keyOf (normalise t.originatorId)) = some label →
      s.cfg.modelToProfile.lookup label = none →
      exec (.dispatch t) s = .next { s with lastResult := some (.reading (.error .unsupportedModel)) })
    ∧ (∀ (t : Telegram) (s : State) (label pid : String),
      s.cfg.deviceDirectory.lookup (keyOf (normalise t.originatorId)) = some label →
      s.cfg.modelToProfile.lookup label = some pid →
      exec (.dispatch t) s = .next { s with lastResult := some (.reading (decodeReading pid t)) })
    ∧ (∀ (cfg : Config) (t : Telegram) (a b c d : Byte),
      dispatch cfg { t with originatorId := [0x00, 0x00, a, b, c, d] }
        = dispatch cfg { t with originatorId := [a, b, c, d] })

/-- With F at the head of the channel, PIPE_STEP removes it and emits: the envelope error's code, else
the telegram error's, else, with the decoders present, the decode error's code with the telegram, or
OK with telegram and reading, or without decoders OK with the telegram; nothing else changes. R240
says that no step happens on an empty channel; that PIPE_STEP run there anyway answers the same
state is the model's choice (log 18). (45_pipeline.md R240.) -/
def Obligations.PipeStepHandlesOneFrame : Prop :=
  (∀ s : State, s.chan = [] → exec .pipeStep s = .next s)
    ∧ (∀ (s : State) (f : RawFrame) (rest : List RawFrame) (e : ErrorName), s.chan = f :: rest →
      parseEnvelope s.cfg f = .error e →
      exec .pipeStep s = .next { s with
        chan := rest, resultOut := s.resultOut ++ [⟨e.code, f, none, none, e.severity⟩] })
    ∧ (∀ (s : State) (f : RawFrame) (rest : List RawFrame) (v : Envelope) (e : ErrorName), s.chan = f :: rest →
      parseEnvelope s.cfg f = .ok v → parseTelegram s.cfg v = .error e →
      exec .pipeStep s = .next { s with
        chan := rest, resultOut := s.resultOut ++ [⟨e.code, f, none, none, e.severity⟩] })
    ∧ (∀ (s : State) (f : RawFrame) (rest : List RawFrame) (v : Envelope) (t : Telegram) (e : ErrorName),
      s.chan = f :: rest → parseEnvelope s.cfg f = .ok v → parseTelegram s.cfg v = .ok t →
      s.cfg.decodersPresent = true → dispatch s.cfg t = .error e →
      exec .pipeStep s = .next { s with
        chan := rest, resultOut := s.resultOut ++ [⟨e.code, f, some t, none, e.severity⟩] })
    ∧ (∀ (s : State) (f : RawFrame) (rest : List RawFrame) (v : Envelope) (t : Telegram) (r : Reading),
      s.chan = f :: rest → parseEnvelope s.cfg f = .ok v → parseTelegram s.cfg v = .ok t →
      s.cfg.decodersPresent = true → dispatch s.cfg t = .ok r →
      exec .pipeStep s = .next { s with
        chan := rest, resultOut := s.resultOut ++ [⟨0x00, f, some t, some r, .none⟩] })
    ∧ (∀ (s : State) (f : RawFrame) (rest : List RawFrame) (v : Envelope) (t : Telegram),
      s.chan = f :: rest → parseEnvelope s.cfg f = .ok v → parseTelegram s.cfg v = .ok t →
      s.cfg.decodersPresent = false →
      exec .pipeStep s = .next { s with
        chan := rest, resultOut := s.resultOut ++ [⟨0x00, f, some t, none, .none⟩] })

/-- When PIPE_STEP answers a next state, asm_st, every address of the frame buffer, the trace, BYTE_IN,
the last result, the turns, the constant state and the transport are unchanged, and the channel has
lost its head only. (45_pipeline.md R240, 60_exceptions.md R252, 10_state.md R30.) -/
def Obligations.PipeStepFrame : Prop :=
  ∀ s t : State, exec .pipeStep s = .next t →
    t.asmSt = s.asmSt ∧ (∀ a, t.frameBuf.read a = s.frameBuf.read a) ∧ t.frameBuf = s.frameBuf
      ∧ t.trace = s.trace ∧ t.byteIn = s.byteIn ∧ t.lastResult = s.lastResult ∧ t.turns = s.turns
      ∧ t.cfg = s.cfg ∧ t.serialOpen = s.serialOpen ∧ t.chan = s.chan.tail

/-- Given PIPE as many turns as frames wait, the channel ends empty and exactly one record per frame has
been emitted, in the order the frames stood in the channel; no frame is handled twice and nothing
else changes. (45_pipeline.md R244, 20_memory.md R63.) -/
def Obligations.DrainEmitsOneRecordPerFrameInOrder : Prop :=
  ∀ (s : State) (ts : List Turn), s.serialOpen = true →
    s.turns = List.replicate s.chan.length .pipe ++ ts →
    ∃ records : List Record, records.map Record.frame = s.chan
      ∧ Host.Core.run Sys2Proof.core s.chan.length s
        = .next { s with chan := [], turns := ts, resultOut := s.resultOut ++ records }

/-- In the record of a PIPE step the frame is the one dequeued; severity is none exactly for code 0 and
low exactly for the three decode codes; the telegram is present exactly for code 0 and the decode
codes; the reading is present exactly for code 0 with the decoders present; and the code is one of
the table's. (45_pipeline.md R241, R243, 60_exceptions.md R250, R251.) -/
def Obligations.RecordFieldsAgree : Prop :=
  ∀ (s t : State) (f : RawFrame) (rest : List RawFrame), s.chan = f :: rest → exec .pipeStep s = .next t →
    ∃ r : Record, t.resultOut = s.resultOut ++ [r] ∧ r.frame = f
      ∧ (r.severity = .none ↔ r.code = 0x00)
      ∧ (r.severity = .low ↔ r.code ∈ [0x30, 0x31, 0x32])
      ∧ (r.telegram.isSome = true ↔ r.code ∈ [0x00, 0x30, 0x31, 0x32])
      ∧ (r.reading.isSome = true ↔ r.code = 0x00 ∧ s.cfg.decodersPresent = true)
      ∧ r.code ∈ [0x00, 0x10, 0x11, 0x12, 0x13, 0x14, 0x15, 0x20, 0x21, 0x22, 0x23, 0x24, 0x25, 0x30, 0x31, 0x32]

/-- The fifteen error names have the codes 0x10 to 0x15, 0x20 to 0x25 and 0x30 to 0x32 in the table's
order, OK is 0x00, the three trace events are labelled 0x01 to 0x03, and no two errors share a code.
(60_exceptions.md R251.) -/
def Obligations.ErrorCodesAreTheTables : Prop :=
  ([.tooShort, .badSync, .headerChecksumMismatch, .unsupportedPacketType, .lengthMismatch, .oversizedFrame,
      .unsupportedShortTelegram, .unsupportedAddressControl, .unsupportedTelegramKind, .dataChecksumMismatch,
      .optionalChecksumMismatch, .telegramTruncated, .missingDataByte, .unmappedDevice,
      .unsupportedModel].map ErrorName.code
    = [0x10, 0x11, 0x12, 0x13, 0x14, 0x15, 0x20, 0x21, 0x22, 0x23, 0x24, 0x25, 0x30, 0x31, 0x32])
    ∧ codeOk = 0x00
    ∧ (∀ (bs : List Byte) (b : Byte), (Event.framingError bs).code = 0x01 ∧ (Event.discard b).code = 0x02
        ∧ (Event.frameDropped bs).code = 0x03)
    ∧ ∀ e e' : ErrorName, e.code = e'.code → e = e'

/-- For every operation that is no step of an agent, whatever its operands and the state, exec answers a
next state that differs at most in the last result: asm_st, every address of the frame buffer, the
channel, the trace, BYTE_IN, the records, the turns and the constant state are as before. R72 says
so of the operations it gives a port; that the field rows and the operations without a port run on
their own, and answer in the same way, is the model's choice (log 6), and so is the last result
itself (log 7). (00_scope.md R16, 30_encoding.md R72, 40_crc8.md R104.) -/
def Obligations.CallsReturnAndWriteNothing : Prop :=
  ∀ (i : Instr) (c : CallSlot) (s : State), (encode i).slot = .call c →
    ∃ r : Result, exec i s = .next { s with lastResult := some r }

/-- Two states that differ only in the last result step alike: a step that is no call leads to states
that again differ only there, and a call leads to the same state from both. R72 and R286 speak of
the calls on ports; that operations without a port can be called is the model's choice (log 6), and
so are the last result and the turns (log 7, log 1). (70_reset_and_hazards.md R286, 30_encoding.md
R72, 00_scope.md R16.) -/
def Obligations.LastResultIsNeverRead : Prop :=
  (∀ (s t : State) (r : Option Result), (∀ turn ts, s.turns = turn :: ts → turn.isCall = false) →
      step s = .next t → step { s with lastResult := r } = .next { t with lastResult := r })
    ∧ (∀ (s : State) (r : Option Result) (turn : Turn) (ts : List Turn), s.turns = turn :: ts →
      turn.isCall = true → step { s with lastResult := r } = step s)

/-- From a state with a frame waiting and FIFO_DEPTH unbounded, ASM's turn and then PIPE's lead exactly
where PIPE's and then ASM's lead: the agents share the channel only. (60_exceptions.md R262,
10_state.md R20, 20_memory.md R63.) -/
def Obligations.AgentStepsCommute : Prop :=
  ∀ (s : State) (ts : List Turn), s.serialOpen = true → s.cfg.fifoDepth = .unbounded → s.chan ≠ [] →
    Host.Core.run Sys2Proof.core 2 ({ s with turns := .asm :: .pipe :: ts } : State)
      = Host.Core.run Sys2Proof.core 2 ({ s with turns := .pipe :: .asm :: ts } : State)

/-- From every state that meets the invariant, with the transport open and no turn listed, after 2 steps
per waiting byte and 1 per waiting frame BYTE_IN and the channel are empty, under either policy. The
order of unlisted turns is the model's (log 1). (60_exceptions.md R262, 41_frame_assembler.md R120,
R126, 45_pipeline.md R240.) -/
def Obligations.UnscheduledMachineDrains : Prop :=
  ∀ s : State, s.Inv → s.serialOpen = true → s.turns = [] →
    ∃ t : State, Host.Core.run Sys2Proof.core (2 * s.byteIn.length + s.chan.length) s = .next t
      ∧ t.byteIn = [] ∧ t.chan = []

/-- From WaitSync with nothing buffered or queued, feed the frame laid out from an envelope with
matching lengths, packet type 10 and at most 65535 bytes, whose telegram parses to t, and give PIPE
a turn: the machine ends in WaitSync with buffer and channel empty, and one record has been emitted,
for that frame, with telegram t. (41_frame_assembler.md R125, 42_envelope_parser.md R158,
43_telegram_parser.md R193, 45_pipeline.md R240.) -/
def Obligations.FedFrameIsReportedParsed : Prop :=
  ∀ (s : State) (e : Envelope) (t : Telegram) (ts : List Turn),
    s.serialOpen = true → s.asmSt = .waitSync → s.frameBuf = [] → s.byteIn = [] → s.chan = [] →
    e.wf = true → e.packetType = 10 → 6 + e.dataLength.toNat + e.optionalLength.toNat + 1 ≤ 65535 →
    parseTelegram s.cfg e = .ok t →
    s.turns = feedGroup (frameOfEnvelope s.cfg e) ++ .pipe :: ts →
    ∃ r : Record, r.frame = frameOfEnvelope s.cfg e ∧ r.telegram = some t
      ∧ Host.Core.run Sys2Proof.core (2 * (frameOfEnvelope s.cfg e).length + 1) s
        = .next { s with turns := ts, resultOut := s.resultOut ++ [r] }
end

