-- ==== Sys2Proof/Laws/State.lean ====
section
/-!
SUPPORT. What each named update of the state leaves in each field: one lemma per field per update, so that no proof unfolds an update.
-/

namespace Sys2Proof.Machine

variable (s : State)

/-! ### event -/

@[simp] theorem event_asmSt (e : Event) : (s.event e).asmSt = s.asmSt := rfl
@[simp] theorem event_frameBuf (e : Event) : (s.event e).frameBuf = s.frameBuf := rfl
@[simp] theorem event_chan (e : Event) : (s.event e).chan = s.chan := rfl
@[simp] theorem event_trace (e : Event) : (s.event e).trace = s.trace ++ [e] := rfl
@[simp] theorem event_byteIn (e : Event) : (s.event e).byteIn = s.byteIn := rfl
@[simp] theorem event_resultOut (e : Event) : (s.event e).resultOut = s.resultOut := rfl
@[simp] theorem event_lastResult (e : Event) : (s.event e).lastResult = s.lastResult := rfl
@[simp] theorem event_turns (e : Event) : (s.event e).turns = s.turns := rfl
@[simp] theorem event_cfg (e : Event) : (s.event e).cfg = s.cfg := rfl
@[simp] theorem event_serialOpen (e : Event) : (s.event e).serialOpen = s.serialOpen := rfl

/-! ### enqueue -/

@[simp] theorem enqueue_asmSt (frame : RawFrame) : (s.enqueue frame).asmSt = s.asmSt := rfl
@[simp] theorem enqueue_frameBuf (frame : RawFrame) : (s.enqueue frame).frameBuf = s.frameBuf := rfl
@[simp] theorem enqueue_chan (frame : RawFrame) : (s.enqueue frame).chan = s.chan ++ [frame] := rfl
@[simp] theorem enqueue_trace (frame : RawFrame) : (s.enqueue frame).trace = s.trace := rfl
@[simp] theorem enqueue_byteIn (frame : RawFrame) : (s.enqueue frame).byteIn = s.byteIn := rfl
@[simp] theorem enqueue_resultOut (frame : RawFrame) : (s.enqueue frame).resultOut = s.resultOut := rfl
@[simp] theorem enqueue_lastResult (frame : RawFrame) : (s.enqueue frame).lastResult = s.lastResult := rfl
@[simp] theorem enqueue_turns (frame : RawFrame) : (s.enqueue frame).turns = s.turns := rfl
@[simp] theorem enqueue_cfg (frame : RawFrame) : (s.enqueue frame).cfg = s.cfg := rfl
@[simp] theorem enqueue_serialOpen (frame : RawFrame) : (s.enqueue frame).serialOpen = s.serialOpen := rfl

/-! ### emitResult -/

@[simp] theorem emitResult_asmSt (r : Record) : (s.emitResult r).asmSt = s.asmSt := rfl
@[simp] theorem emitResult_frameBuf (r : Record) : (s.emitResult r).frameBuf = s.frameBuf := rfl
@[simp] theorem emitResult_chan (r : Record) : (s.emitResult r).chan = s.chan := rfl
@[simp] theorem emitResult_trace (r : Record) : (s.emitResult r).trace = s.trace := rfl
@[simp] theorem emitResult_byteIn (r : Record) : (s.emitResult r).byteIn = s.byteIn := rfl
@[simp] theorem emitResult_resultOut (r : Record) : (s.emitResult r).resultOut = s.resultOut ++ [r] := rfl
@[simp] theorem emitResult_lastResult (r : Record) : (s.emitResult r).lastResult = s.lastResult := rfl
@[simp] theorem emitResult_turns (r : Record) : (s.emitResult r).turns = s.turns := rfl
@[simp] theorem emitResult_cfg (r : Record) : (s.emitResult r).cfg = s.cfg := rfl
@[simp] theorem emitResult_serialOpen (r : Record) : (s.emitResult r).serialOpen = s.serialOpen := rfl

/-! ### clearBuf -/

@[simp] theorem clearBuf_asmSt : (s.clearBuf).asmSt = s.asmSt := rfl
@[simp] theorem clearBuf_frameBuf : (s.clearBuf).frameBuf = [] := rfl
@[simp] theorem clearBuf_chan : (s.clearBuf).chan = s.chan := rfl
@[simp] theorem clearBuf_trace : (s.clearBuf).trace = s.trace := rfl
@[simp] theorem clearBuf_byteIn : (s.clearBuf).byteIn = s.byteIn := rfl
@[simp] theorem clearBuf_resultOut : (s.clearBuf).resultOut = s.resultOut := rfl
@[simp] theorem clearBuf_lastResult : (s.clearBuf).lastResult = s.lastResult := rfl
@[simp] theorem clearBuf_turns : (s.clearBuf).turns = s.turns := rfl
@[simp] theorem clearBuf_cfg : (s.clearBuf).cfg = s.cfg := rfl
@[simp] theorem clearBuf_serialOpen : (s.clearBuf).serialOpen = s.serialOpen := rfl

/-! ### applyReset -/

@[simp] theorem applyReset_asmSt : (s.applyReset).asmSt = .waitSync := rfl
@[simp] theorem applyReset_frameBuf : (s.applyReset).frameBuf = [] := rfl
@[simp] theorem applyReset_chan : (s.applyReset).chan = [] := rfl
@[simp] theorem applyReset_trace : (s.applyReset).trace = [] := rfl
@[simp] theorem applyReset_byteIn : (s.applyReset).byteIn = s.byteIn := rfl
@[simp] theorem applyReset_resultOut : (s.applyReset).resultOut = s.resultOut := rfl
@[simp] theorem applyReset_lastResult : (s.applyReset).lastResult = s.lastResult := rfl
@[simp] theorem applyReset_turns : (s.applyReset).turns = s.turns := rfl
@[simp] theorem applyReset_cfg : (s.applyReset).cfg = s.cfg := rfl
@[simp] theorem applyReset_serialOpen : (s.applyReset).serialOpen = s.serialOpen := rfl

/-! ### dropOversize -/

@[simp] theorem dropOversize_asmSt : (s.dropOversize).asmSt = .waitSync := rfl
@[simp] theorem dropOversize_frameBuf : (s.dropOversize).frameBuf = [] := rfl
@[simp] theorem dropOversize_chan : (s.dropOversize).chan = s.chan := rfl
@[simp] theorem dropOversize_trace : (s.dropOversize).trace = s.trace ++ [.framingError (s.asmBuf.take 4)] := rfl
@[simp] theorem dropOversize_byteIn : (s.dropOversize).byteIn = s.byteIn := rfl
@[simp] theorem dropOversize_resultOut : (s.dropOversize).resultOut = s.resultOut := rfl
@[simp] theorem dropOversize_lastResult : (s.dropOversize).lastResult = s.lastResult := rfl
@[simp] theorem dropOversize_turns : (s.dropOversize).turns = s.turns := rfl
@[simp] theorem dropOversize_cfg : (s.dropOversize).cfg = s.cfg := rfl
@[simp] theorem dropOversize_serialOpen : (s.dropOversize).serialOpen = s.serialOpen := rfl

/-! ### rejectFrame -/

@[simp] theorem rejectFrame_asmSt (e : ErrorName) (frame : RawFrame) (t : Option Telegram) : (s.rejectFrame e frame t).asmSt = s.asmSt := rfl
@[simp] theorem rejectFrame_frameBuf (e : ErrorName) (frame : RawFrame) (t : Option Telegram) : (s.rejectFrame e frame t).frameBuf = s.frameBuf := rfl
@[simp] theorem rejectFrame_chan (e : ErrorName) (frame : RawFrame) (t : Option Telegram) : (s.rejectFrame e frame t).chan = s.chan := rfl
@[simp] theorem rejectFrame_trace (e : ErrorName) (frame : RawFrame) (t : Option Telegram) : (s.rejectFrame e frame t).trace = s.trace := rfl
@[simp] theorem rejectFrame_byteIn (e : ErrorName) (frame : RawFrame) (t : Option Telegram) : (s.rejectFrame e frame t).byteIn = s.byteIn := rfl
@[simp] theorem rejectFrame_resultOut (e : ErrorName) (frame : RawFrame) (t : Option Telegram) : (s.rejectFrame e frame t).resultOut = s.resultOut ++ [Record.mk e.code frame t none e.severity] := rfl
@[simp] theorem rejectFrame_lastResult (e : ErrorName) (frame : RawFrame) (t : Option Telegram) : (s.rejectFrame e frame t).lastResult = s.lastResult := rfl
@[simp] theorem rejectFrame_turns (e : ErrorName) (frame : RawFrame) (t : Option Telegram) : (s.rejectFrame e frame t).turns = s.turns := rfl
@[simp] theorem rejectFrame_cfg (e : ErrorName) (frame : RawFrame) (t : Option Telegram) : (s.rejectFrame e frame t).cfg = s.cfg := rfl
@[simp] theorem rejectFrame_serialOpen (e : ErrorName) (frame : RawFrame) (t : Option Telegram) : (s.rejectFrame e frame t).serialOpen = s.serialOpen := rfl

/-! ### acceptFrame -/

@[simp] theorem acceptFrame_asmSt (frame : RawFrame) (t : Telegram) (r : Option Reading) : (s.acceptFrame frame t r).asmSt = s.asmSt := rfl
@[simp] theorem acceptFrame_frameBuf (frame : RawFrame) (t : Telegram) (r : Option Reading) : (s.acceptFrame frame t r).frameBuf = s.frameBuf := rfl
@[simp] theorem acceptFrame_chan (frame : RawFrame) (t : Telegram) (r : Option Reading) : (s.acceptFrame frame t r).chan = s.chan := rfl
@[simp] theorem acceptFrame_trace (frame : RawFrame) (t : Telegram) (r : Option Reading) : (s.acceptFrame frame t r).trace = s.trace := rfl
@[simp] theorem acceptFrame_byteIn (frame : RawFrame) (t : Telegram) (r : Option Reading) : (s.acceptFrame frame t r).byteIn = s.byteIn := rfl
@[simp] theorem acceptFrame_resultOut (frame : RawFrame) (t : Telegram) (r : Option Reading) : (s.acceptFrame frame t r).resultOut = s.resultOut ++ [Record.mk codeOk frame (some t) r .none] := rfl
@[simp] theorem acceptFrame_lastResult (frame : RawFrame) (t : Telegram) (r : Option Reading) : (s.acceptFrame frame t r).lastResult = s.lastResult := rfl
@[simp] theorem acceptFrame_turns (frame : RawFrame) (t : Telegram) (r : Option Reading) : (s.acceptFrame frame t r).turns = s.turns := rfl
@[simp] theorem acceptFrame_cfg (frame : RawFrame) (t : Telegram) (r : Option Reading) : (s.acceptFrame frame t r).cfg = s.cfg := rfl
@[simp] theorem acceptFrame_serialOpen (frame : RawFrame) (t : Telegram) (r : Option Reading) : (s.acceptFrame frame t r).serialOpen = s.serialOpen := rfl

/-! ### dropOldest, whose chan and trace depend on the head -/

@[simp] theorem dropOldest_asmSt : s.dropOldest.asmSt = s.asmSt := by
  unfold State.dropOldest; split <;> rfl
@[simp] theorem dropOldest_frameBuf : s.dropOldest.frameBuf = s.frameBuf := by
  unfold State.dropOldest; split <;> rfl
@[simp] theorem dropOldest_byteIn : s.dropOldest.byteIn = s.byteIn := by
  unfold State.dropOldest; split <;> rfl
@[simp] theorem dropOldest_resultOut : s.dropOldest.resultOut = s.resultOut := by
  unfold State.dropOldest; split <;> rfl
@[simp] theorem dropOldest_lastResult : s.dropOldest.lastResult = s.lastResult := by
  unfold State.dropOldest; split <;> rfl
@[simp] theorem dropOldest_turns : s.dropOldest.turns = s.turns := by
  unfold State.dropOldest; split <;> rfl
@[simp] theorem dropOldest_cfg : s.dropOldest.cfg = s.cfg := by
  unfold State.dropOldest; split <;> rfl
@[simp] theorem dropOldest_serialOpen : s.dropOldest.serialOpen = s.serialOpen := by
  unfold State.dropOldest; split <;> rfl
@[simp] theorem dropOldest_chan : s.dropOldest.chan = s.chan.tail := by
  unfold State.dropOldest; split <;> simp_all

theorem dropOldest_cons (oldest : RawFrame) (rest : List RawFrame) (h : s.chan = oldest :: rest) :
    s.dropOldest = { s with chan := rest, trace := s.trace ++ [.frameDropped oldest] } := by
  unfold State.dropOldest; rw [h]; rfl

/-! ### Views -/

theorem asmLen_eq : s.asmLen = s.frameBuf.length := rfl

theorem asmBuf_eq : s.asmBuf = s.frameBuf.bytes := rfl

@[simp] theorem asmBuf_length : s.asmBuf.length = s.asmLen := by simp [State.asmBuf, State.asmLen, Memory.bytes]

/-- A state is its ten fields. -/
theorem state_ext {s t : State} (h1 : s.asmSt = t.asmSt) (h2 : s.frameBuf = t.frameBuf)
    (h3 : s.chan = t.chan) (h4 : s.trace = t.trace) (h5 : s.byteIn = t.byteIn)
    (h6 : s.resultOut = t.resultOut) (h7 : s.lastResult = t.lastResult) (h8 : s.turns = t.turns)
    (h9 : s.cfg = t.cfg) (h10 : s.serialOpen = t.serialOpen) : s = t := by
  cases s; cases t; simp_all

end Sys2Proof.Machine
end

