-- ==== Sys2Proof/Laws/Memory.lean ====
section
/-!
SUPPORT. The laws of the frame buffer memory: reading after writing, the canonical form, and the buffer as a byte sequence.
-/

namespace Sys2Proof.Machine

@[simp] theorem read_nil (a : Nat) : Memory.read [] a = none := rfl

/-- Reading, cell by cell. -/
theorem read_cons (x : Nat) (v : Byte) (m : Memory) (a : Nat) :
    Memory.read ((x, v) :: m) a = if a = x then some v else Memory.read m a := by
  unfold Memory.read
  by_cases h : a = x
  · simp [h]
  · simp [List.lookup_cons, h, beq_eq_false_iff_ne.mpr h]

/-- A written byte is read back. -/
@[simp] theorem read_write_same (m : Memory) (a : Nat) (b : Byte) : (m.write a b).read a = some b := by
  induction m with
  | nil => simp [Memory.write, read_cons]
  | cons c m ih =>
    obtain ⟨x, v⟩ := c
    unfold Memory.write
    split
    · simp [read_cons]
    · split
      · simp [read_cons]
      · next h => simp [read_cons, h, ih]

/-- A write leaves every other address alone. -/
theorem read_write_other (m : Memory) {a a' : Nat} (b : Byte) (h : a' ≠ a) :
    (m.write a b).read a' = m.read a' := by
  induction m with
  | nil => simp [Memory.write, read_cons, h]
  | cons c m ih =>
    obtain ⟨x, v⟩ := c
    unfold Memory.write
    split
    · simp [read_cons, h]
    · split
      · next hx => subst hx; simp [read_cons, h]
      · simp [read_cons, ih]

/-- The canonical form in propositional terms. -/
theorem wf_iff (m : Memory) :
    m.wf = true ↔ m.Pairwise (fun c d => c.1 < d.1) ∧ ∀ c ∈ m, c.1 < maxFrame := by
  simp [Memory.wf]

@[simp] theorem wf_nil : Memory.wf [] = true := by simp [wf_iff]

@[simp] theorem wf_cleared : Memory.wf Memory.cleared = true := wf_nil

/-- The addresses after a write are the written one and those before. -/
theorem mem_write {m : Memory} {a : Nat} {b : Byte} {c : Host.Cell} (h : c ∈ m.write a b) :
    c = (a, b) ∨ c ∈ m := by
  induction m with
  | nil => simpa [Memory.write] using h
  | cons d m ih =>
    obtain ⟨x, v⟩ := d
    unfold Memory.write at h
    split at h
    · simpa using h
    · split at h
      · simp only [List.mem_cons] at h ⊢; tauto
      · simp only [List.mem_cons] at h ⊢; tauto

/-- A write inside the frame buffer keeps the canonical form. -/
theorem wf_write {m : Memory} {a : Nat} {b : Byte} (h : m.wf = true) (ha : a < maxFrame) :
    (m.write a b).wf = true := by
  rw [wf_iff] at h ⊢
  refine ⟨?_, fun c hc => ?_⟩
  · obtain ⟨h, -⟩ := h
    induction m with
    | nil => simp [Memory.write]
    | cons d m ih =>
      obtain ⟨x, v⟩ := d
      rw [List.pairwise_cons] at h
      unfold Memory.write
      split
      · next hx =>
        rw [List.pairwise_cons]
        refine ⟨fun c hc => ?_, List.pairwise_cons.mpr h⟩
        rcases List.mem_cons.mp hc with rfl | hc
        · exact hx
        · exact lt_trans hx (h.1 c hc)
      · split
        · next hx => subst hx; exact List.pairwise_cons.mpr h
        · next h1 h2 =>
          rw [List.pairwise_cons]
          refine ⟨fun c hc => ?_, ih h.2⟩
          rcases mem_write hc with rfl | hc
          · show x < a
            omega
          · exact h.1 c hc
  · rcases mem_write hc with rfl | hc
    · exact ha
    · exact h.2 c hc

/-! ### The buffer as a byte sequence -/

@[simp] theorem bytes_nil : Memory.bytes [] = [] := rfl

@[simp] theorem ofBytes_nil : Memory.ofBytes [] = [] := rfl

@[simp] theorem ofBytesFrom_length (a : Nat) (bs : List Byte) : (Memory.ofBytesFrom a bs).length = bs.length := by
  induction bs generalizing a with
  | nil => rfl
  | cons b bs ih => simp [Memory.ofBytesFrom, ih]

@[simp] theorem ofBytes_length (bs : List Byte) : (Memory.ofBytes bs).length = bs.length :=
  ofBytesFrom_length 0 bs

@[simp] theorem bytes_ofBytesFrom (a : Nat) (bs : List Byte) : (Memory.ofBytesFrom a bs).bytes = bs := by
  induction bs generalizing a with
  | nil => rfl
  | cons b bs ih =>
    have := ih (a + 1)
    unfold Memory.bytes at this ⊢
    simp [Memory.ofBytesFrom, this]

@[simp] theorem bytes_ofBytes (bs : List Byte) : (Memory.ofBytes bs).bytes = bs := bytes_ofBytesFrom 0 bs

/-- Writing just past a byte sequence appends to it. -/
theorem write_ofBytesFrom_end (a : Nat) (bs : List Byte) (b : Byte) :
    (Memory.ofBytesFrom a bs).write (a + bs.length) b = Memory.ofBytesFrom a (bs ++ [b]) := by
  induction bs generalizing a with
  | nil => simp [Memory.ofBytesFrom, Memory.write]
  | cons c bs ih =>
    have := ih (a + 1)
    simp only [Memory.ofBytesFrom, Memory.write, List.length_cons, List.cons_append]
    rw [if_neg (by omega), if_neg (by omega), show a + (bs.length + 1) = a + 1 + bs.length by omega, this]

/-- `append` on a buffer that holds a byte sequence (R52). -/
@[simp] theorem write_ofBytes_end (bs : List Byte) (b : Byte) :
    (Memory.ofBytes bs).write bs.length b = Memory.ofBytes (bs ++ [b]) := by
  simpa [Memory.ofBytes] using write_ofBytesFrom_end 0 bs b

theorem read_ofBytesFrom (a : Nat) (bs : List Byte) (i : Nat) :
    (Memory.ofBytesFrom a bs).read (a + i) = bs[i]? := by
  induction bs generalizing a i with
  | nil => simp [Memory.ofBytesFrom]
  | cons c bs ih =>
    cases i with
    | zero => simp [Memory.ofBytesFrom, read_cons]
    | succ i =>
      have := ih (a + 1) i
      rw [show a + (i + 1) = a + 1 + i by omega, Memory.ofBytesFrom, read_cons, if_neg (by omega), this]
      rfl

/-- A buffer that holds a byte sequence reads as that sequence. -/
@[simp] theorem read_ofBytes (bs : List Byte) (i : Nat) : (Memory.ofBytes bs).read i = bs[i]? := by
  simpa [Memory.ofBytes] using read_ofBytesFrom 0 bs i

/-- The length the assembler computes is the frame's (R26). -/
@[simp] theorem total_ofBytes (bs : List Byte) : (Memory.ofBytes bs).total = frameTotal bs := by
  simp [Memory.total, frameTotal]

theorem wf_ofBytesFrom (a : Nat) (bs : List Byte) (h : a + bs.length ≤ maxFrame) :
    (Memory.ofBytesFrom a bs).wf = true ∧ ∀ c ∈ Memory.ofBytesFrom a bs, a ≤ c.1 := by
  induction bs generalizing a with
  | nil => simp [Memory.ofBytesFrom]
  | cons b bs ih =>
    simp only [List.length_cons] at h
    obtain ⟨hw, hge⟩ := ih (a + 1) (by omega)
    rw [wf_iff] at hw
    rw [wf_iff]
    simp only [Memory.ofBytesFrom, List.pairwise_cons, List.mem_cons, forall_eq_or_imp]
    refine ⟨⟨⟨fun c hc => ?_, hw.1⟩, by omega, hw.2⟩, le_refl a, fun c hc => ?_⟩
    · have := hge c hc; omega
    · have := hge c hc; omega

/-- A byte sequence that fits the frame buffer is in canonical form there. -/
theorem wf_ofBytes (bs : List Byte) (h : bs.length ≤ maxFrame) : (Memory.ofBytes bs).wf = true :=
  (wf_ofBytesFrom 0 bs (by omega)).1

end Sys2Proof.Machine
end

