-- ==== Sys2Proof/Laws/Ops.lean ====
section
/-!
SUPPORT. For each shared operation one lemma that says once everything it can do; proofs cite these in place of unfolding the operation.
-/

namespace Sys2Proof.Machine

/-! ### Outcomes -/

@[simp] theorem outcomeOf_ok (s : State) : outcomeOf (.ok s) = .next s := rfl

@[simp] theorem outcomeOf_error (f : Fault) : outcomeOf (.error f) = .fault f := rfl

theorem outcomeOf_eq_next {r : Except Fault State} {t : State} : outcomeOf r = .next t ↔ r = .ok t := by
  cases r <;> simp

theorem outcomeOf_ne_refused (r : Except Fault State) (q : Refusal) : outcomeOf r ≠ .refused q := by
  cases r <;> simp

@[simp] theorem answer_eq (r : Result) (s : State) : answer r s = .next { s with lastResult := some r } := rfl

@[simp] theorem except_ok_bind {ε α β : Type} (a : α) (f : α → Except ε β) : (Except.ok a >>= f) = f a := rfl

@[simp] theorem except_error_bind {ε α β : Type} (e : ε) (f : α → Except ε β) :
    ((Except.error e : Except ε α) >>= f) = .error e := rfl

/-! ### Checks and the cursor -/

theorem ensure_bind {α : Type} (c : Bool) (e : ErrorName) (f : Unit → Except ErrorName α) :
    (ensure c e >>= f) = if c then f () else .error e := by cases c <;> rfl

theorem ensure_eq_ok {c : Bool} {e : ErrorName} {u : Unit} : ensure c e = .ok u ↔ c = true := by
  cases c <;> simp [ensure]

theorem ensure_eq_error {c : Bool} {e e' : ErrorName} : ensure c e = .error e' ↔ c = false ∧ e = e' := by
  cases c <;> simp [ensure]

/-- `take` gives what it takes and what is left, or is short (R194). -/
theorem take_eq_ok {w : Nat} {rest v rest' : List Byte} :
    take w rest = .ok (v, rest') ↔ w ≤ rest.length ∧ v = rest.take w ∧ rest' = rest.drop w := by
  unfold take
  split <;> simp_all [eq_comm]

theorem take_of_le {w : Nat} {rest : List Byte} (h : w ≤ rest.length) :
    take w rest = .ok (rest.take w, rest.drop w) := if_pos h

theorem take_of_lt {w : Nat} {rest : List Byte} (h : rest.length < w) :
    take w rest = .error .telegramTruncated := if_neg (by omega)

@[simp] theorem takeByte_nil : takeByte [] = .error .telegramTruncated := rfl

@[simp] theorem takeByte_cons (b : Byte) (rest : List Byte) : takeByte (b :: rest) = .ok (b, rest) := rfl

/-! ### append and deliver -/

/-- What `append(b)` does, where it does not fault (R52). -/
theorem appendByte_eq_ok {s t : State} {b : Byte} :
    s.appendByte b = .ok t ↔ s.asmLen < maxFrame ∧ t = { s with frameBuf := s.frameBuf.write s.asmLen b } := by
  unfold State.appendByte
  split <;> simp_all [eq_comm]

/-- `append(b)` on a buffer that holds a byte sequence. -/
theorem appendByte_ofBytes {s : State} {bs : List Byte} (b : Byte) (hs : s.frameBuf = Memory.ofBytes bs)
    (h : bs.length < maxFrame) : s.appendByte b = .ok { s with frameBuf := Memory.ofBytes (bs ++ [b]) } := by
  have hl : s.asmLen = bs.length := by simp [State.asmLen, hs]
  rw [appendByte_eq_ok, hl, hs]
  exact ⟨h, by simp⟩

/-- `append(b)` keeps the memory's canonical form. -/
theorem appendByte_wf {s t : State} {b : Byte} (h : s.appendByte b = .ok t) (hw : s.frameBuf.wf = true) :
    t.frameBuf.wf = true := by
  obtain ⟨hl, rfl⟩ := appendByte_eq_ok.mp h
  exact wf_write hw hl

/-- Everything `deliver(F)` can do (R126). -/
theorem deliver_cases {s t : State} {frame : RawFrame} (h : s.deliver frame = .ok t) :
    (s.chanHasRoom = true ∧ t = s.enqueue frame)
      ∨ (s.chanHasRoom = false ∧ s.cfg.fifoPolicy = .dropOldest ∧ t = s.dropOldest.enqueue frame) := by
  unfold State.deliver at h
  split at h
  · next hr => exact .inl ⟨hr, by simpa using h.symm⟩
  · next hr =>
    split at h
    · next hp => exact .inr ⟨by simpa using hr, hp, by simpa using h.symm⟩
    · simp at h

/-- A delivery fails only on a full channel under BLOCK_PRODUCER (R126). -/
theorem deliver_eq_error {s : State} {frame : RawFrame} {f : Fault} :
    s.deliver frame = .error f ↔ s.chanHasRoom = false ∧ s.cfg.fifoPolicy = .blockProducer ∧ f = .producerHeld := by
  unfold State.deliver
  cases s.chanHasRoom <;> cases s.cfg.fifoPolicy <;> simp [eq_comm]

theorem depthOf_pos {d : FifoDepth} {n : Nat} (h : depthOf d = some n) : 0 < n := by
  cases d <;> simp [depthOf] at h
  omega

/-! ### The assembler's shared parts -/

theorem appendThen_eq_ok {s t : State} {b : Byte} {st : AsmSt} :
    appendThen b st s = .ok t ↔
      s.asmLen < maxFrame ∧ t = { s with frameBuf := s.frameBuf.write s.asmLen b, asmSt := st } := by
  unfold appendThen State.appendByte
  split <;> simp_all [Except.map, eq_comm]

theorem readTotal_eq_ok {s : State} {n : Nat} : s.readTotal = .ok n ↔ s.frameBuf.total = some n := by
  unfold State.readTotal
  split <;> simp_all

/-! ### The pipeline -/

/-- PIPE emits exactly one record for a frame, which names the frame, and touches nothing else (R240, R244). -/
theorem pipeFrame_emits (s : State) (frame : RawFrame) :
    ∃ r : Record, s.pipeFrame frame = s.emitResult r ∧ r.frame = frame := by
  unfold State.pipeFrame State.pipeTelegram
  repeat' split
  all_goals exact ⟨_, rfl, rfl⟩

/-! ### The assembler's state register -/

/-- The code of `asm_st` selects the operation of R71. -/
theorem decode_asmTxn (st : AsmSt) (b : Byte) : decode (asmTxn st b) = .ok (asmOperation st b) := by
  cases st <;> rfl

theorem decode_pipeAgent : decode ⟨.pipeAgent, "", []⟩ = .ok .pipeStep := rfl

end Sys2Proof.Machine
end

