-- ==== Sys2Proof/Laws/Operands.lean ====
section
/-!
SUPPORT. The lemmas of the operand functions: frame lengths, extension bytes, addresses and data, header bytes.
-/

namespace Sys2Proof.Machine

/-! ### Except -/

/-- A computation that succeeds did so part by part. -/
theorem bind_eq_ok {ε α β : Type} {x : Except ε α} {f : α → Except ε β} {b : β} :
    (x >>= f) = .ok b ↔ ∃ a, x = .ok a ∧ f a = .ok b := by
  cases x <;> simp

theorem map_eq_ok {ε α β : Type} {x : Except ε α} {f : α → β} {b : β} :
    x.map f = .ok b ↔ ∃ a, x = .ok a ∧ f a = b := by
  cases x <;> simp [Except.map]

/-! ### Frame lengths (R26, R56) -/

/-- A big-endian pair as a number (R12). -/
theorem be16_toNat (hi lo : Byte) : (be16 hi lo).toNat = 256 * hi.toNat + lo.toNat := by
  have h1 := hi.isLt
  have h2 := lo.isLt
  simp only [be16, BitVec.toNat_or, BitVec.toNat_shiftLeft, BitVec.truncate_eq_setWidth,
    BitVec.toNat_setWidth]
  rw [Nat.mod_eq_of_lt (show hi.toNat < 2 ^ 16 by omega), Nat.mod_eq_of_lt (show lo.toNat < 2 ^ 16 by omega),
    Nat.mod_eq_of_lt (by rw [Nat.shiftLeft_eq]; omega), ← Nat.shiftLeft_add_eq_or_of_lt h2, Nat.shiftLeft_eq]
  omega

/-- The length that a frame's bytes 1 to 3 give. -/
theorem frameTotal_four (x hi lo b : Byte) (rest : List Byte) :
    frameTotal (x :: hi :: lo :: b :: rest) = some (6 + (256 * hi.toNat + lo.toNat) + b.toNat + 1) := by
  simp [frameTotal, frameLength, be16_toNat]

/-- Bytes after the length fields do not change the length. -/
theorem frameTotal_append {bs : List Byte} {n : Nat} (cs : List Byte) (h : frameTotal bs = some n) :
    frameTotal (bs ++ cs) = some n := by
  match bs, h with
  | x :: hi :: lo :: b :: rest, h =>
    rw [frameTotal_four] at h
    rw [show x :: hi :: lo :: b :: rest ++ cs = x :: hi :: lo :: b :: (rest ++ cs) from rfl, frameTotal_four, h]
  | [], h => simp [frameTotal] at h
  | [_], h => simp [frameTotal] at h
  | [_, _], h => simp [frameTotal] at h
  | [_, _, _], h => simp [frameTotal] at h

/-- A buffer short of a frame of at most 65535 bytes (R25). -/
theorem bodyOpen_iff (buf : List Byte) :
    bodyOpen buf = true ↔ ∃ n, frameTotal buf = some n ∧ buf.length < n ∧ n ≤ 65535 := by
  unfold bodyOpen
  split
  · next h => simp [h]
  · next n h =>
    rw [Bool.and_eq_true, decide_eq_true_eq, decide_eq_true_eq, h]
    exact ⟨fun ⟨h1, h2⟩ => ⟨n, rfl, h1, h2⟩, fun ⟨m, h0, h1, h2⟩ => Option.some.inj h0 ▸ ⟨h1, h2⟩⟩

/-! ### The telegram's fields -/

@[simp] theorem readExtension_false (rest : List Byte) : readExtension false rest = .ok (none, rest) := rfl

@[simp] theorem readExtension_true_nil : readExtension true [] = .error .telegramTruncated := rfl

@[simp] theorem readExtension_true_cons (b : Byte) (rest : List Byte) :
    readExtension true (b :: rest) = .ok (some b, rest) := rfl

/-- Without a destination the addresses are the originator's bytes. -/
theorem readAddresses_zero (ow : Nat) (rest : List Byte) :
    readAddresses ow 0 rest
      = if ow ≤ rest.length then .ok (rest.take ow, none, rest.drop ow) else .error .telegramTruncated := by
  unfold readAddresses take
  split <;> rfl

/-- With a destination the addresses are the originator's bytes and four more. -/
theorem readAddresses_four (ow : Nat) (rest : List Byte) :
    readAddresses ow 4 rest
      = if ow + 4 ≤ rest.length then
          .ok (rest.take ow, some ((rest.drop ow).take 4), rest.drop (ow + 4))
        else .error .telegramTruncated := by
  unfold readAddresses take
  by_cases h : ow ≤ rest.length
  · simp only [if_pos h, except_ok_bind, readDestination, if_true, take, List.length_drop]
    by_cases h4 : ow + 4 ≤ rest.length
    · rw [if_pos (by omega), if_pos h4]
      simp [Except.map, List.drop_drop]
    · rw [if_neg (by omega), if_neg h4]
      rfl
  · rw [if_neg h, if_neg (by omega)]
    rfl

/-- Data is a kind's number of bytes. -/
theorem readData_eq (kind : TelegramKind) (dn : Nat) (rest : List Byte) :
    readData kind dn rest
      = if dn ≤ rest.length then .ok (kind, rest.take dn, rest.drop dn) else .error .telegramTruncated := by
  unfold readData take
  split <;> rfl

/-! ### Ids -/

theorem hex2_length (b : Byte) : (hex2 b).length = 2 := rfl

theorem keyOf_toList (ident : List Byte) : (keyOf ident).toList = ident.flatMap hex2 := by
  simp [keyOf]

end Sys2Proof.Machine
end

