-- ==== Sys2Proof/Laws/PerInstr.lean ====
section
/-!
SUPPORT. The family `EncodeText` of statements made per operation: an operation carries a text operand only in a slot that takes one.
-/

namespace Sys2Proof.Laws.EncodeText

/-- The encoding of an operation has a text operand only where its slot takes one. -/
def Statement (i : Instr) : Prop := slotTakesText (encode i).slot = false → (encode i).text = ""

theorem crc8 (bs : List Byte) : Statement (.crc8 bs) := fun _ => rfl

theorem verify (bs : List Byte) (expected : Byte) : Statement (.verify bs expected) := fun _ => rfl

theorem asmWaitSync (b : Byte) : Statement (.asmWaitSync b) := fun _ => rfl

theorem asmLenHi (b : Byte) : Statement (.asmLenHi b) := fun _ => rfl

theorem asmLenLo (b : Byte) : Statement (.asmLenLo b) := fun _ => rfl

theorem asmOptLen (b : Byte) : Statement (.asmOptLen b) := fun _ => rfl

theorem asmBody (b : Byte) : Statement (.asmBody b) := fun _ => rfl

theorem parseEnvelope (frame : RawFrame) : Statement (.parseEnvelope frame) := fun _ => rfl

theorem parseTelegram (envelope : Envelope) : Statement (.parseTelegram envelope) := fun _ => rfl

theorem decode1003 (d : List Byte) : Statement (.decode1003 d) := nofun

theorem decode0205 (d : List Byte) : Statement (.decode0205 d) := nofun

theorem decode0401 (d : List Byte) : Statement (.decode0401 d) := nofun

theorem decode0001 (d : List Byte) : Statement (.decode0001 d) := nofun

theorem decode0204 (d : List Byte) : Statement (.decode0204 d) := nofun

theorem decode (pid : String) (telegram : Telegram) : Statement (.decode pid telegram) := nofun

theorem normalizeId (ident : List Byte) : Statement (.normalizeId ident) := fun _ => rfl

theorem directoryKey (ident : List Byte) : Statement (.directoryKey ident) := fun _ => rfl

theorem dispatch (telegram : Telegram) : Statement (.dispatch telegram) := fun _ => rfl

theorem pipeStep : Statement .pipeStep := fun _ => rfl

theorem sync : Statement .sync := fun _ => rfl

theorem syncBad (b : Byte) : Statement (.syncBad b) := fun _ => rfl

theorem ptRadio : Statement .ptRadio := fun _ => rfl

theorem ptOther (b : Byte) : Statement (.ptOther b) := fun _ => rfl

theorem ac000 (h : Byte) (rest : List Byte) : Statement (.ac000 h rest) := fun _ => rfl

theorem ac001 (h : Byte) (rest : List Byte) : Statement (.ac001 h rest) := fun _ => rfl

theorem ac010 (h : Byte) (rest : List Byte) : Statement (.ac010 h rest) := fun _ => rfl

theorem ac011 (h : Byte) (rest : List Byte) : Statement (.ac011 h rest) := fun _ => rfl

theorem acReserved (h : Byte) (rest : List Byte) : Statement (.acReserved h rest) := fun _ => rfl

theorem xhAbsent (h : Byte) (rest : List Byte) : Statement (.xhAbsent h rest) := fun _ => rfl

theorem xhPresent (h : Byte) (rest : List Byte) : Statement (.xhPresent h rest) := fun _ => rfl

theorem kindRps (h : Byte) (rest : List Byte) : Statement (.kindRps h rest) := fun _ => rfl

theorem kindOneByte (h : Byte) (rest : List Byte) : Statement (.kindOneByte h rest) := fun _ => rfl

theorem kindFourByte (h : Byte) (rest : List Byte) : Statement (.kindFourByte h rest) := fun _ => rfl

theorem kindReserved (h : Byte) (rest : List Byte) : Statement (.kindReserved h rest) := fun _ => rfl

theorem kindExt (h : Byte) (rest : List Byte) : Statement (.kindExt h rest) := fun _ => rfl

theorem contactOpen : Statement .contactOpen := fun _ => rfl

theorem contactClosed (b : Byte) : Statement (.contactClosed b) := fun _ => rfl

theorem rockerBi (b : Byte) : Statement (.rockerBi b) := fun _ => rfl

theorem rockerBo (b : Byte) : Statement (.rockerBo b) := fun _ => rfl

theorem rockerAi (b : Byte) : Statement (.rockerAi b) := fun _ => rfl

theorem rockerAo (b : Byte) : Statement (.rockerAo b) := fun _ => rfl

end Sys2Proof.Laws.EncodeText
end

