-- ==== Sys2Proof/Laws/Step.lean ====
section
/-!
SUPPORT. What one assembler operation, one step and a run of several steps can do; proofs cite these in place of unfolding `exec` and `step`.
-/

namespace Sys2Proof.Machine

/-! ### Assembler operations -/

/-- Everything ASM_OPTLEN can do when it does not fault (R124). -/
theorem execAsmOptLen_eq_next {s t : State} {b : Byte} (h : execAsmOptLen b s = .next t) :
    ∃ n, s.asmLen < maxFrame ∧ (s.frameBuf.write s.asmLen b).total = some n
      ∧ ((n ≤ maxFrame ∧ t = { s with frameBuf := s.frameBuf.write s.asmLen b, asmSt := .readBody })
        ∨ (maxFrame < n ∧ t = { s with
            frameBuf := [], asmSt := .waitSync,
            trace := s.trace ++ [.framingError ((s.frameBuf.write s.asmLen b).bytes.take 4)] })) := by
  obtain ⟨u, h1, h2⟩ := bind_eq_ok.mp (outcomeOf_eq_next.mp h)
  obtain ⟨n, h3, h4⟩ := bind_eq_ok.mp h2
  obtain ⟨hl, rfl⟩ := appendByte_eq_ok.mp h1
  refine ⟨n, hl, readTotal_eq_ok.mp h3, ?_⟩
  split at h4
  · next hn => exact .inr ⟨hn, (Except.ok.inj h4).symm⟩
  · next hn => exact .inl ⟨by omega, (Except.ok.inj h4).symm⟩

/-- Everything ASM_BODY can do when it does not fault (R125, R126). -/
theorem execAsmBody_eq_next {s t : State} {b : Byte} (h : execAsmBody b s = .next t) :
    ∃ n, s.asmLen < maxFrame ∧ (s.frameBuf.write s.asmLen b).total = some n
      ∧ (((s.frameBuf.write s.asmLen b).length ≠ n
            ∧ t = { s with frameBuf := s.frameBuf.write s.asmLen b, asmSt := .readBody })
        ∨ ((s.frameBuf.write s.asmLen b).length = n ∧ s.chanHasRoom = true
            ∧ t = { s with
                frameBuf := [], asmSt := .waitSync, chan := s.chan ++ [(s.frameBuf.write s.asmLen b).bytes] })
        ∨ ((s.frameBuf.write s.asmLen b).length = n ∧ s.chanHasRoom = false ∧ s.cfg.fifoPolicy = .dropOldest
            ∧ t = { s with
                frameBuf := [], asmSt := .waitSync
                chan := s.chan.tail ++ [(s.frameBuf.write s.asmLen b).bytes]
                trace := s.dropOldest.trace })) := by
  obtain ⟨u, h1, h2⟩ := bind_eq_ok.mp (outcomeOf_eq_next.mp h)
  obtain ⟨n, h3, h4⟩ := bind_eq_ok.mp h2
  obtain ⟨hl, rfl⟩ := appendByte_eq_ok.mp h1
  refine ⟨n, hl, readTotal_eq_ok.mp h3, ?_⟩
  split at h4
  · next hn =>
    obtain ⟨v, h5, rfl⟩ := map_eq_ok.mp h4
    rcases deliver_cases h5 with ⟨hr, rfl⟩ | ⟨hr, hp, rfl⟩
    · exact .inr (.inl ⟨hn, hr, rfl⟩)
    · refine .inr (.inr ⟨hn, hr, hp, ?_⟩)
      apply state_ext <;> try first | rfl | simp [State.enqueue, State.clearBuf, State.asmBuf]
      unfold State.dropOldest
      cases s.chan <;> rfl
  · next hn => exact .inl ⟨hn, (Except.ok.inj h4).symm⟩

/-! ### The hold -/

/-- The hold reads five fields only (R126). -/
theorem asmHeld_congr {s t : State} (h1 : s.cfg = t.cfg) (h2 : s.asmSt = t.asmSt) (h3 : s.frameBuf = t.frameBuf)
    (h4 : s.chan = t.chan) : s.asmHeld = t.asmHeld := by
  simp only [State.asmHeld, State.chanFull, State.asmLen, h1, h2, h3, h4]

theorem asmHeld_of_dropOldest {s : State} (h : s.cfg.fifoPolicy = .dropOldest) : s.asmHeld = false := by
  simp [State.asmHeld, h]

theorem asmHeld_of_not_body {s : State} (h : s.asmSt ≠ .readBody) : s.asmHeld = false := by
  simp [State.asmHeld, h]

/-! ### One step -/

/-- A byte's arrival. -/
theorem step_byte {s : State} {b : Byte} {ts : List Turn} (ht : s.turns = .byte b :: ts) :
    step s = .next { s with turns := ts, byteIn := s.byteIn ++ [b] } := by
  simp [step, fetch, ht, fetchTurn]

/-- The schedule's own part of a step: nothing but the turns and BYTE_IN differs. -/
structure SameButQueues (s u : State) : Prop where
  asmSt : u.asmSt = s.asmSt
  frameBuf : u.frameBuf = s.frameBuf
  chan : u.chan = s.chan
  trace : u.trace = s.trace
  resultOut : u.resultOut = s.resultOut
  lastResult : u.lastResult = s.lastResult
  cfg : u.cfg = s.cfg
  serialOpen : u.serialOpen = s.serialOpen

/-- Enabling reads six fields only. -/
theorem asmEnabled_congr {s t : State} (h1 : s.cfg = t.cfg) (h2 : s.asmSt = t.asmSt) (h3 : s.frameBuf = t.frameBuf)
    (h4 : s.chan = t.chan) (h5 : s.byteIn = t.byteIn) (h6 : s.serialOpen = t.serialOpen) :
    s.asmEnabled = t.asmEnabled := by
  simp only [State.asmEnabled, State.agentsFree, h5, h6, asmHeld_congr h1 h2 h3 h4]

theorem asmEnabled_iff (s : State) :
    s.asmEnabled = true ↔ s.serialOpen = true ∧ s.byteIn ≠ [] ∧ s.asmHeld = false := by
  simp [State.asmEnabled, State.agentsFree, and_assoc]

theorem pipeEnabled_iff (s : State) : s.pipeEnabled = true ↔ s.serialOpen = true ∧ s.chan ≠ [] := by
  simp [State.pipeEnabled, State.agentsFree]

/-- ASM's turn: nothing, or with the transport open and no hold the operation of `asm_st`. -/
theorem fetchAsm_cases (s : State) :
    (s.asmEnabled = false ∧ fetchAsm s = .settled s)
      ∨ (s.asmEnabled = true ∧ ∃ b rest, s.byteIn = b :: rest
        ∧ fetchAsm s = .run (asmTxn s.asmSt b) { s with byteIn := rest }) := by
  unfold fetchAsm
  by_cases h : s.asmEnabled = true
  · obtain ⟨-, hb, -⟩ := (asmEnabled_iff s).mp h
    rw [if_pos h]
    split
    · contradiction
    · next b rest hbi => exact .inr ⟨h, b, rest, hbi, rfl⟩
  · exact .inl ⟨by simpa using h, if_neg h⟩

/-- PIPE's turn: nothing, or with the transport open and a frame waiting PIPE_STEP. -/
theorem fetchPipe_cases (s : State) :
    (s.pipeEnabled = false ∧ fetchPipe s = .settled s)
      ∨ (s.pipeEnabled = true ∧ fetchPipe s = .run ⟨.pipeAgent, "", []⟩ s) := by
  unfold fetchPipe
  cases s.pipeEnabled <;> simp

/-- What a fetch can find: nothing to run, a reset, ASM's operation where its step is enabled, PIPE's
where its step is enabled, or HOST's transaction. -/
theorem fetch_cases (s : State) :
    ∃ u, SameButQueues s u
      ∧ (fetch s = .settled u ∨ ((∃ ts, s.turns = .reset :: ts) ∧ fetch s = .settled u.applyReset)
        ∨ (s.serialOpen = true ∧ s.asmHeld = false ∧ ∃ b, fetch s = .run (asmTxn s.asmSt b) u)
        ∨ (s.serialOpen = true ∧ s.chan ≠ [] ∧ fetch s = .run ⟨.pipeAgent, "", []⟩ u)
        ∨ ∃ c text bytes ts, s.turns = .call c text bytes :: ts ∧ fetch s = .run ⟨.call c, text, bytes⟩ u) := by
  have asm : ∀ u : State, SameButQueues s u → ∃ v, SameButQueues s v ∧ (fetchAsm u = .settled v
      ∨ (s.serialOpen = true ∧ s.asmHeld = false ∧ ∃ b, fetchAsm u = .run (asmTxn s.asmSt b) v)) := by
    intro u hu
    rcases fetchAsm_cases u with ⟨-, h⟩ | ⟨he, b, rest, -, h⟩
    · exact ⟨u, hu, .inl h⟩
    · obtain ⟨ho, -, hh⟩ := (asmEnabled_iff u).mp he
      refine ⟨{ u with byteIn := rest }, ⟨hu.1, hu.2, hu.3, hu.4, hu.5, hu.6, hu.7, hu.8⟩, .inr ⟨?_, ?_, b, ?_⟩⟩
      · rw [← hu.serialOpen]; exact ho
      · rw [← asmHeld_congr hu.cfg hu.asmSt hu.frameBuf hu.chan]; exact hh
      · rw [h, hu.asmSt]
  have pipe : ∀ u : State, SameButQueues s u → fetchPipe u = .settled u
      ∨ (s.serialOpen = true ∧ s.chan ≠ [] ∧ fetchPipe u = .run ⟨.pipeAgent, "", []⟩ u) := by
    intro u hu
    rcases fetchPipe_cases u with ⟨-, h⟩ | ⟨he, h⟩
    · exact .inl h
    · rw [pipeEnabled_iff, hu.serialOpen, hu.chan] at he
      exact .inr ⟨he.1, he.2, h⟩
  unfold fetch
  split
  · have hs : SameButQueues s s := ⟨rfl, rfl, rfl, rfl, rfl, rfl, rfl, rfl⟩
    split
    · obtain ⟨v, hv, h⟩ := asm s hs
      exact ⟨v, hv, by tauto⟩
    · have h := pipe s hs
      exact ⟨s, hs, by tauto⟩
  · next turn ts ht =>
    have hs : SameButQueues s { s with turns := ts } := ⟨rfl, rfl, rfl, rfl, rfl, rfl, rfl, rfl⟩
    cases turn with
    | reset => exact ⟨_, hs, .inr (.inl ⟨⟨ts, ht⟩, rfl⟩)⟩
    | byte b => exact ⟨{ s with turns := ts, byteIn := s.byteIn ++ [b] },
        ⟨rfl, rfl, rfl, rfl, rfl, rfl, rfl, rfl⟩, .inl rfl⟩
    | asm =>
      obtain ⟨v, hv, h⟩ := asm _ hs
      exact ⟨v, hv, by simp only [fetchTurn]; tauto⟩
    | pipe =>
      have h := pipe _ hs
      exact ⟨_, hs, by simp only [fetchTurn]; tauto⟩
    | call c text bytes => exact ⟨_, hs, .inr (.inr (.inr (.inr ⟨c, text, bytes, ts, ht, rfl⟩)))⟩

/-! ### Runs -/

theorem run_zero (s : State) : Host.Core.run Sys2Proof.core 0 s = .next s := rfl

/-- A run goes on from where its first step leads. -/
theorem run_succ {s t : State} (k : Nat) (h : step s = .next t) :
    Host.Core.run Sys2Proof.core (k + 1) s = Host.Core.run Sys2Proof.core k t := by
  have h' : Sys2Proof.core.step s = .next t := h
  simp only [Host.Core.run, h']

/-- Runs compose. -/
theorem run_add {s t : State} (k n : Nat) (h : Host.Core.run Sys2Proof.core k s = .next t) :
    Host.Core.run Sys2Proof.core (k + n) s = Host.Core.run Sys2Proof.core n t := by
  induction k generalizing s with
  | zero =>
    have : s = t := Host.Outcome.next.inj h
    rw [this, Nat.zero_add]
  | succ k ih =>
    cases hs : step s with
    | next u =>
      rw [run_succ k hs] at h
      rw [Nat.add_right_comm, run_succ _ hs, ih h]
    | fault f =>
      have hs' : Sys2Proof.core.step s = .fault f := hs
      simp only [Host.Core.run, hs'] at h
      cases h
    | refused r =>
      have hs' : Sys2Proof.core.step s = .refused r := hs
      simp only [Host.Core.run, hs'] at h
      cases h

end Sys2Proof.Machine
end

