-- ==== Sys2Proof/Tests/Slice0.lean ====
section
/-!
SUPPORT. The model's own tests: ill-formed operations refused, words of every row decoded, one-step tests from the vectors of spec/95_test_vectors.md (named in each docstring), and for each statement with hypotheses a concrete state and operands that meet them.
-/

namespace Sys2Proof.Machine.Tests

set_option Elab.async false

/-! ### Fixtures: the reference frames of 95_test_vectors.md §2 and the configuration CFG of §7 -/

def frameF1 : RawFrame :=
  [0x55, 0x00, 0x0A, 0x02, 0x0A, 0x9B, 0x22, 0x01, 0x9A, 0x2B, 0x3C, 0x00, 0x98, 0xC1, 0x08, 0x38, 0x01, 0x2D, 0xAF]

def frameF3 : RawFrame :=
  [0x55, 0x00, 0x0A, 0x02, 0x0A, 0x9B, 0x71, 0x0F, 0x00, 0x00, 0x01, 0x9A, 0x2B, 0x3E, 0x08, 0x38, 0x02, 0x3C, 0x0B]

def frameF5 : RawFrame :=
  [0x55, 0x00, 0x06, 0x02, 0x0A, 0x61, 0x01, 0x0A, 0x0B, 0x0C, 0x09, 0x3F, 0x01, 0x40, 0x30]

/-- F1 with the header checksum 9A (§5 E1). -/
def frameE1 : RawFrame :=
  [0x55, 0x00, 0x0A, 0x02, 0x0A, 0x9A, 0x22, 0x01, 0x9A, 0x2B, 0x3C, 0x00, 0x98, 0xC1, 0x08, 0x38, 0x01, 0x2D, 0xAF]

/-- F1 with packet type 1 and its header checksum (§5 E2). -/
def frameE2 : RawFrame :=
  [0x55, 0x00, 0x0A, 0x02, 0x01, 0xAA, 0x22, 0x01, 0x9A, 0x2B, 0x3C, 0x00, 0x98, 0xC1, 0x08, 0x38, 0x01, 0x2D, 0xAF]

/-- F1 with the originator 01 9A 2B 3F (§8 F1u). -/
def frameF1u : RawFrame :=
  [0x55, 0x00, 0x0A, 0x02, 0x0A, 0x9B, 0x22, 0x01, 0x9A, 0x2B, 0x3F, 0x00, 0x98, 0xC1, 0x08, 0x38, 0x01, 0x2D, 0x9A]

/-- The envelope of F1 (§5 F1). -/
def envelopeF1 : Envelope :=
  ⟨10, 2, 10, [0x22, 0x01, 0x9A, 0x2B, 0x3C, 0x00, 0x98, 0xC1, 0x08, 0x38], [0x01, 0x2D], 0xAF⟩

/-- The telegram of F1 (§6 F1); the signal is -45 as a 16-bit value. -/
def telegramF1 : Telegram :=
  ⟨0b001, none, none, [0x01, 0x9A, 0x2B, 0x3C], none, .fourByte, [0x00, 0x98, 0xC1, 0x08], 1, 0xFFD3⟩

/-- The envelope of F2 (§2). -/
def envelopeF2 : Envelope :=
  ⟨11, 2, 10, [0x40, 0x01, 0x9A, 0x2B, 0x3D, 0xFF, 0xFF, 0xFF, 0xFF, 0x85, 0x92], [0x00, 0x50], 0x85⟩

/-- The telegram of F2 (§6 F2); the signal is -80. -/
def telegramF2 : Telegram :=
  ⟨0b010, none, none, [0x01, 0x9A, 0x2B, 0x3D], some [0xFF, 0xFF, 0xFF, 0xFF], .rps, [0x85], 0, 0xFFB0⟩

def exampleConfig : Config :=
  { defaultConfig with
    deviceDirectory := [("019a2b3c", "SOILSENSOR"), ("019a2b3d", "ROCKER"), ("019a2b3e", "DOOR"),
      ("0a0b0c", "THSENSOR"), ("0a0b0d", "LEGACY")]
    modelToProfile := [("SOILSENSOR", "10-03"), ("ROCKER", "02-04"), ("DOOR", "00-01"), ("THSENSOR", "04-01")] }

/-- The state as reset ends with CFG. -/
def start : State := State.boot exampleConfig true

/-- The state with the assembler at `st` and the buffer `bs`. -/
def atAsm (st : AsmSt) (bs : List Byte) : State := { start with asmSt := st, frameBuf := Memory.ofBytes bs }

/-- A small state with a channel of the given depth and policy that holds the given frames. -/
def atChannel (depth : FifoDepth) (policy : FifoPolicy) (frames : List RawFrame) : State :=
  { start with cfg := { exampleConfig with fifoDepth := depth, fifoPolicy := policy }, chan := frames }

/-- The next state of an outcome. -/
def after : Host.Outcome State Fault Refusal → Option State
  | .next s => some s
  | .fault _ => none
  | .refused _ => none

/-- The value a direct operation returned. -/
def returned (o : Host.Outcome State Fault Refusal) : Option Result := (after o).bind State.lastResult

/-- The assembler's part of a state: asm_st, asm_buf, chan, trace. -/
structure AsmView where
  st : AsmSt
  buf : List Byte
  chan : List RawFrame
  trace : List Event
  deriving DecidableEq, Repr

/-- The assembler's part of the next state. -/
def asmAfter (o : Host.Outcome State Fault Refusal) : Option AsmView :=
  (after o).map fun s => ⟨s.asmSt, s.asmBuf, s.chan, s.trace⟩

/-! ### Ill-formed operations are refused -/

theorem test_wf_refuses_envelope_lengths :
    (Instr.parseTelegram { envelopeF1 with dataLength := 9 }).wf = false
      ∧ (Instr.parseTelegram { envelopeF1 with optionalLength := 3 }).wf = false := by decide +kernel

theorem test_wf_refuses_telegram_fields :
    (Instr.decode "10-03" { telegramF1 with addressControl := 0b100 }).wf = false
      ∧ (Instr.decode "10-03" { telegramF1 with originatorId := [0x01, 0x02] }).wf = false
      ∧ (Instr.dispatch { telegramF1 with destinationId := some [0xFF] }).wf = false
      ∧ (Instr.dispatch { telegramF1 with data := [0x00] }).wf = false
      ∧ (Instr.dispatch { telegramF1 with signalStrengthDbm := 1 }).wf = false
      ∧ (Instr.dispatch { telegramF1 with signalStrengthDbm := 0xFF00 }).wf = false := by decide +kernel

theorem test_wf_refuses_frame_bytes :
    (Instr.syncBad 0x55).wf = false ∧ (Instr.ptOther 0x0A).wf = false ∧ (Instr.contactClosed 0x08).wf = false := by
  decide +kernel

theorem test_wf_refuses_header_rows :
    (Instr.ac000 0x20 []).wf = false ∧ (Instr.ac001 0x00 []).wf = false ∧ (Instr.ac010 0x60 []).wf = false
      ∧ (Instr.ac011 0x40 []).wf = false ∧ (Instr.acReserved 0x7F []).wf = false
      ∧ (Instr.xhAbsent 0x10 []).wf = false ∧ (Instr.xhPresent 0x0F []).wf = false := by decide +kernel

theorem test_wf_refuses_kind_rows :
    (Instr.kindRps 0x01 []).wf = false ∧ (Instr.kindOneByte 0x03 []).wf = false
      ∧ (Instr.kindFourByte 0x06 []).wf = false ∧ (Instr.kindReserved 0x02 []).wf = false
      ∧ (Instr.kindReserved 0x0F []).wf = false ∧ (Instr.kindExt 0x0E []).wf = false := by decide +kernel

theorem test_wf_refuses_rocker_rows :
    (Instr.rockerBi 0x80).wf = false ∧ (Instr.rockerBo 0x88).wf = false ∧ (Instr.rockerAi 0x02).wf = false
      ∧ (Instr.rockerAo 0x82).wf = false := by decide +kernel

/-! ### Decoding: words written out from the table's rows -/

/-- Rows ASM_WAITSYNC to ASM_BODY, the 3-bit values of R23. -/
theorem test_decode_asm_rows :
    decode ⟨.asmState, "", [0b00000000, 0x55]⟩ = .ok (.asmWaitSync 0x55)
      ∧ decode ⟨.asmState, "", [0b00000001, 0x00]⟩ = .ok (.asmLenHi 0x00)
      ∧ decode ⟨.asmState, "", [0b00000010, 0x0A]⟩ = .ok (.asmLenLo 0x0A)
      ∧ decode ⟨.asmState, "", [0b00000011, 0x02]⟩ = .ok (.asmOptLen 0x02)
      ∧ decode ⟨.asmState, "", [0b00000100, 0xAF]⟩ = .ok (.asmBody 0xAF) := by decide +kernel

/-- Rows CRC8, VERIFY, PARSE_ENVELOPE, PARSE_TELEGRAM, PIPE_STEP. -/
theorem test_decode_engine_and_parser_rows :
    decode ⟨.call .crc8, "", [0x00, 0x0A]⟩ = .ok (.crc8 [0x00, 0x0A])
      ∧ decode ⟨.call .verify, "", [0x38, 0x08]⟩ = .ok (.verify [0x08] 0x38)
      ∧ decode ⟨.call .parseEnvelope, "", frameF1⟩ = .ok (.parseEnvelope frameF1)
      ∧ decode ⟨.call .parseTelegram, "",
          [0x00, 0x0A, 0x02, 0x0A, 0x22, 0x01, 0x9A, 0x2B, 0x3C, 0x00, 0x98, 0xC1, 0x08, 0x38, 0x01, 0x2D, 0xAF]⟩
        = .ok (.parseTelegram envelopeF1)
      ∧ decode ⟨.pipeAgent, "", []⟩ = .ok .pipeStep := by decide +kernel

/-- Rows DECODE_10_03 to DECODE_02_04, by the ids of R85. -/
theorem test_decode_profile_rows :
    decode ⟨.call .profile, "10-03", [0x00]⟩ = .ok (.decode1003 [0x00])
      ∧ decode ⟨.call .profile, "02-05", [0x01]⟩ = .ok (.decode0205 [0x01])
      ∧ decode ⟨.call .profile, "04-01", [0x02]⟩ = .ok (.decode0401 [0x02])
      ∧ decode ⟨.call .profile, "00-01", [0x08]⟩ = .ok (.decode0001 [0x08])
      ∧ decode ⟨.call .profile, "02-04", [0x85]⟩ = .ok (.decode0204 [0x85]) := by decide +kernel

/-- Rows DECODE, DISPATCH, NORMALIZE_ID, DIRECTORY_KEY. The telegram of F1 and of F2 byte by byte. -/
theorem test_decode_lookup_rows :
    decode ⟨.call .decode, "99-99",
        [0x01, 0x00, 0x00, 0x04, 0x01, 0x9A, 0x2B, 0x3C, 0x00, 0x02, 0x00, 0x98, 0xC1, 0x08, 0x01, 0x2D]⟩
      = .ok (.decode "99-99" telegramF1)
      ∧ decode ⟨.call .dispatch, "",
        [0x02, 0x00, 0x00, 0x04, 0x01, 0x9A, 0x2B, 0x3D, 0x01, 0xFF, 0xFF, 0xFF, 0xFF, 0x00, 0x85, 0x00, 0x50]⟩
      = .ok (.dispatch telegramF2)
      ∧ decode ⟨.call .normalizeId, "", [0x00, 0x00, 0x0C]⟩ = .ok (.normalizeId [0x00, 0x00, 0x0C])
      ∧ decode ⟨.call .directoryKey, "", [0x0A, 0x0B, 0x0C]⟩ = .ok (.directoryKey [0x0A, 0x0B, 0x0C]) := by
  decide +kernel

/-- Rows SYNC, SYNC_BAD, PT_RADIO, PT_OTHER, CONTACT_OPEN, CONTACT_CLOSED. -/
theorem test_decode_byte_rows :
    decode ⟨.call .frameByte0, "", [0b01010101]⟩ = .ok .sync
      ∧ decode ⟨.call .frameByte0, "", [0b01010100]⟩ = .ok (.syncBad 0x54)
      ∧ decode ⟨.call .frameByte4, "", [0b00001010]⟩ = .ok .ptRadio
      ∧ decode ⟨.call .frameByte4, "", [0b00000001]⟩ = .ok (.ptOther 0x01)
      ∧ decode ⟨.call .contactCode, "", [0b00001000]⟩ = .ok .contactOpen
      ∧ decode ⟨.call .contactCode, "", [0b00001001]⟩ = .ok (.contactClosed 0x09) := by decide +kernel

/-- Rows AC_000 to AC_RESERVED: bits 7 to 5 of the header byte (R77, R78), the others at 1. -/
theorem test_decode_address_rows :
    decode ⟨.call .headerAddress, "", [0b00011111]⟩ = .ok (.ac000 0x1F [])
      ∧ decode ⟨.call .headerAddress, "", [0b00111111]⟩ = .ok (.ac001 0x3F [])
      ∧ decode ⟨.call .headerAddress, "", [0b01011111]⟩ = .ok (.ac010 0x5F [])
      ∧ decode ⟨.call .headerAddress, "", [0b01111111]⟩ = .ok (.ac011 0x7F [])
      ∧ decode ⟨.call .headerAddress, "", [0b10000000]⟩ = .ok (.acReserved 0x80 [])
      ∧ decode ⟨.call .headerAddress, "", [0b11111111]⟩ = .ok (.acReserved 0xFF []) := by decide +kernel

/-- Rows XH_ABSENT, XH_PRESENT and KIND_RPS to KIND_EXT: bit 4 and bits 3 to 0 (R77, R79, R80). -/
theorem test_decode_flag_and_kind_rows :
    decode ⟨.call .headerExt, "", [0b11101111, 0x07]⟩ = .ok (.xhAbsent 0xEF [0x07])
      ∧ decode ⟨.call .headerExt, "", [0b00010000, 0x07]⟩ = .ok (.xhPresent 0x10 [0x07])
      ∧ decode ⟨.call .headerKind, "", [0b11110000]⟩ = .ok (.kindRps 0xF0 [])
      ∧ decode ⟨.call .headerKind, "", [0b00010001]⟩ = .ok (.kindOneByte 0x11 [])
      ∧ decode ⟨.call .headerKind, "", [0b00100010]⟩ = .ok (.kindFourByte 0x22 [])
      ∧ decode ⟨.call .headerKind, "", [0b00000011]⟩ = .ok (.kindReserved 0x03 [])
      ∧ decode ⟨.call .headerKind, "", [0b11111110]⟩ = .ok (.kindReserved 0xFE [])
      ∧ decode ⟨.call .headerKind, "", [0b00101111]⟩ = .ok (.kindExt 0x2F []) := by decide +kernel

/-- Rows ROCKER_BI to ROCKER_AO (R85). -/
theorem test_decode_rocker_rows :
    decode ⟨.call (.rockerCode .bi), "", [0b10001000]⟩ = .ok (.rockerBi 0x88)
      ∧ decode ⟨.call (.rockerCode .bo), "", [0b10000101]⟩ = .ok (.rockerBo 0x85)
      ∧ decode ⟨.call (.rockerCode .ai), "", [0b10000010]⟩ = .ok (.rockerAi 0x82)
      ∧ decode ⟨.call (.rockerCode .ao), "", [0b10000101]⟩ = .ok (.rockerAo 0x85) := by decide +kernel

/-- Transactions that name no operation are refused by name. -/
theorem test_decode_refuses_by_name :
    decode ⟨.asmState, "", [0x05, 0x00]⟩ = .error .asmStateNeverHeld
      ∧ decode ⟨.asmState, "", [0x00]⟩ = .error .missingOperand
      ∧ decode ⟨.pipeAgent, "", [0x00]⟩ = .error .extraOperand
      ∧ decode ⟨.call .crc8, "10-03", []⟩ = .error .unexpectedText
      ∧ decode ⟨.call .profile, "10-3", [0x00]⟩ = .error .noSuchProfile
      ∧ decode ⟨.call .parseTelegram, "", [0x00, 0x01, 0x00, 0x0A, 0x22]⟩ = .error .notAnEnvelope
      ∧ decode ⟨.call .dispatch, "", [0x04]⟩ = .error .notATelegram
      ∧ decode ⟨.call (.rockerCode .bi), "", [0x84]⟩ = .error .codeNotMatched := by decide +kernel

/-- An operand of any length is taken: CRC8 "is total on every byte sequence" (R101), and the ids'
pseudocode reads any sequence (R227, R228, notes/assumptions/23.md). -/
theorem test_decode_takes_every_length (bs : List Byte) :
    decode ⟨.call .crc8, "", bs⟩ = .ok (.crc8 bs) ∧ decode ⟨.call .normalizeId, "", bs⟩ = .ok (.normalizeId bs)
      ∧ decode ⟨.call .directoryKey, "", bs⟩ = .ok (.directoryKey bs) := ⟨rfl, rfl, rfl⟩

/-- A bare number of the table and the fetch place it (notes/assumptions/5.md). -/
theorem test_table_words :
    decodeTableWord 8 0x55 = some .sync ∧ decodeTableWord 8 0x04 = some (.asmBody 0x00)
      ∧ decodeTableWord 8 0x88 = some (.rockerBi 0x88) ∧ decodeTableWord 16 0x55 = none
      ∧ returned (step (State.reset.withFetchWord 8 0x55)) = some (.fieldCheck (.ok ()))
      ∧ asmAfter (step (State.reset.withFetchWord 8 0x01)) = some ⟨.readLenLo, [0x55, 0x00], [], []⟩ := by
  decide +kernel

/-! ### One step of each operation, against the vectors -/

/-- §3: the check value F4, and the F1 header span. -/
theorem test_crc8 :
    returned (exec (.crc8 [0x31, 0x32, 0x33, 0x34, 0x35, 0x36, 0x37, 0x38, 0x39]) start) = some (.u8 0xF4)
      ∧ returned (exec (.crc8 [0x00, 0x0A, 0x02, 0x0A]) start) = some (.u8 0x9B) := by decide +kernel

/-- §3: VERIFY, a match and a mismatch. -/
theorem test_verify :
    returned (exec (.verify [0x00, 0x98, 0xC1, 0x08] 0x38) start) = some (.boolean true)
      ∧ returned (exec (.verify [] 0x01) start) = some (.boolean false) := by decide +kernel

/-- §4 A1, A2. -/
theorem test_asmWaitSync :
    asmAfter (exec (.asmWaitSync 0x00) start) = some ⟨.waitSync, [], [], [.discard 0x00]⟩
      ∧ asmAfter (exec (.asmWaitSync 0x55) start) = some ⟨.readLenHi, [0x55], [], []⟩ := by decide +kernel

/-- §4 A3, A4. -/
theorem test_asmLenHi_asmLenLo :
    asmAfter (exec (.asmLenHi 0x55) (atAsm .readLenHi [0x55])) = some ⟨.readLenLo, [0x55, 0x55], [], []⟩
      ∧ asmAfter (exec (.asmLenLo 0x0A) (atAsm .readLenLo [0x55, 0x00]))
        = some ⟨.readOptLen, [0x55, 0x00, 0x0A], [], []⟩ := by decide +kernel

/-- §4 A7, A8: the largest accepted header and the smallest dropped one. -/
theorem test_asmOptLen :
    asmAfter (exec (.asmOptLen 0x00) (atAsm .readOptLen [0x55, 0xFF, 0xF8]))
      = some ⟨.readBody, [0x55, 0xFF, 0xF8, 0x00], [], []⟩
      ∧ asmAfter (exec (.asmOptLen 0x01) (atAsm .readOptLen [0x55, 0xFF, 0xF8]))
        = some ⟨.waitSync, [], [], [.framingError [0x55, 0xFF, 0xF8, 0x01]]⟩ := by decide +kernel

/-- §4 A10, A11. -/
theorem test_asmBody :
    asmAfter (exec (.asmBody 0xAF) (atAsm .readBody (frameF1.take 18))) = some ⟨.waitSync, [], [frameF1], []⟩
      ∧ asmAfter (exec (.asmBody 0x2B) (atAsm .readBody (frameF1.take 9)))
        = some ⟨.readBody, frameF1.take 10, [], []⟩ := by decide +kernel

/-- §4 A13, A14: a channel of two frames, full, under either policy. -/
theorem test_full_channel :
    asmAfter (step { atChannel (.bounded 1) .dropOldest [frameF1, frameF5] with
        asmSt := .readBody, frameBuf := Memory.ofBytes (frameF3.take 18), byteIn := [0x0B], turns := [.asm] })
      = some ⟨.waitSync, [], [frameF5, frameF3], [.frameDropped frameF1]⟩
      ∧ asmAfter (step { atChannel (.bounded 1) .blockProducer [frameF1, frameF5] with
          asmSt := .readBody, frameBuf := Memory.ofBytes (frameF3.take 18), byteIn := [0x0B], turns := [.asm] })
        = some ⟨.readBody, frameF3.take 18, [frameF1, frameF5], []⟩ := by decide +kernel

/-- §5 F1, E2b: the checksum is checked before the packet type. -/
theorem test_parseEnvelope :
    returned (exec (.parseEnvelope frameF1) start) = some (.envelope (.ok envelopeF1))
      ∧ returned (exec (.parseEnvelope (frameF1.set 4 0x01)) start)
        = some (.envelope (.error .headerChecksumMismatch)) := by decide +kernel

/-- §6 F1, and its PREFIX row. -/
theorem test_parseTelegram :
    returned (exec (.parseTelegram envelopeF1) start) = some (.telegram (.ok telegramF1))
      ∧ returned (exec (.parseTelegram envelopeF1)
          { start with cfg := { exampleConfig with dataCrcSpan := .telegramPrefix } })
        = some (.telegram (.error .dataChecksumMismatch)) := by decide +kernel

/-- §6 E16: the address check comes before the kind check; E14: the count is missing. -/
theorem test_parseTelegram_order :
    returned (exec (.parseTelegram
        ⟨10, 2, 10, [0x83, 0x01, 0x9A, 0x2B, 0x3C, 0x00, 0x98, 0xC1, 0x08, 0x38], [0x01, 0x2D], 0x29⟩) start)
      = some (.telegram (.error .unsupportedAddressControl))
      ∧ returned (exec (.parseTelegram
        ⟨10, 0, 10, [0x22, 0x01, 0x9A, 0x2B, 0x3C, 0x00, 0x98, 0xC1, 0x08, 0x38], [], 0xDF⟩) start)
        = some (.telegram (.error .telegramTruncated)) := by decide +kernel

/-- §7 D1, D4. -/
theorem test_decode1003 :
    returned (exec (.decode1003 [0x00, 0x98, 0xC1, 0x08]) start)
      = some (.reading (.ok (.temperatureSoilMoisture (496 / 51) 152)))
      ∧ returned (exec (.decode1003 [0x08]) start) = some (.reading (.error .missingDataByte)) := by decide +kernel

/-- §7 D6, D7. -/
theorem test_decode0205 :
    returned (exec (.decode0205 [0x00, 0x98, 0xC1]) start) = some (.reading (.ok (.temperature (496 / 51))))
      ∧ returned (exec (.decode0205 [0x00, 0x98]) start) = some (.reading (.error .missingDataByte)) := by
  decide +kernel

/-- §7 D8, D9. -/
theorem test_decode0401 :
    returned (exec (.decode0401 [0x00, 0x10, 0x80, 0x08]) start)
      = some (.reading (.ok (.temperatureHumidity (512 / 25) (32 / 5))))
      ∧ returned (exec (.decode0401 [0x00, 0xFF, 0xFF, 0x00]) start)
        = some (.reading (.ok (.temperatureHumidity (204 / 5) 102))) := by decide +kernel

/-- §7 D13, D14. -/
theorem test_decode0001 :
    returned (exec (.decode0001 [0x18]) start) = some (.reading (.ok (.contactState .closed)))
      ∧ returned (exec (.decode0001 [0x08, 0x00, 0x00, 0x00]) start)
        = some (.reading (.ok (.contactState .opened))) := by decide +kernel

/-- §7 D16, D20. -/
theorem test_decode0204 :
    returned (exec (.decode0204 [0x85]) start) = some (.reading (.ok (.rockerPresses [.bo, .ao])))
      ∧ returned (exec (.decode0204 [0x30]) start) = some (.reading (.ok (.rockerPresses []))) := by decide +kernel

/-- §7 D22, and D1 through DECODE. -/
theorem test_decode :
    returned (exec (.decode "99-99" telegramF1) start) = some (.reading (.error .unsupportedModel))
      ∧ returned (exec (.decode "10-03" telegramF1) start)
        = some (.reading (.ok (.temperatureSoilMoisture (496 / 51) 152))) := by decide +kernel

/-- §7 N1, N4. -/
theorem test_normalizeId :
    returned (exec (.normalizeId [0x00, 0x00, 0x01, 0x9A, 0x2B, 0x3E]) start)
      = some (.ident [0x01, 0x9A, 0x2B, 0x3E])
      ∧ returned (exec (.normalizeId [0x00, 0x00, 0x00, 0x00]) start)
        = some (.ident [0x00, 0x00, 0x00, 0x00]) := by decide +kernel

/-- §7 K1, K3. -/
theorem test_directoryKey :
    returned (exec (.directoryKey [0x01, 0x9A, 0x2B, 0x3C]) start) = some (.key "019a2b3c")
      ∧ returned (exec (.directoryKey [0x00, 0x01, 0x01, 0x9A, 0x2B, 0x3E]) start)
        = some (.key "0001019a2b3e") := by decide +kernel

/-- §7 X2, X5. -/
theorem test_dispatch :
    returned (exec (.dispatch telegramF2) start) = some (.reading (.ok (.rockerPresses [.bo, .ao])))
      ∧ returned (exec (.dispatch { telegramF1 with originatorId := [0x0A, 0x0B, 0x0D] }) start)
        = some (.reading (.error .unsupportedModel)) := by decide +kernel

/-- §8 F1 and F1u: the record PIPE emits. -/
theorem test_pipeStep :
    (after (exec .pipeStep { start with chan := [frameF1] })).map State.resultOut
      = some [⟨0x00, frameF1, some telegramF1, some (.temperatureSoilMoisture (496 / 51) 152), .none⟩]
      ∧ (after (exec .pipeStep { start with chan := [frameF1u] })).map State.resultOut
        = some [⟨0x31, frameF1u, some { telegramF1 with originatorId := [0x01, 0x9A, 0x2B, 0x3F] }, none, .low⟩] := by
  decide +kernel

/-- R74, R75, R152, R155. -/
theorem test_frame_byte_rows :
    returned (exec .sync start) = some (.fieldCheck (.ok ()))
      ∧ returned (exec (.syncBad 0x54) start) = some (.fieldCheck (.error .badSync))
      ∧ returned (exec .ptRadio start) = some (.fieldCheck (.ok ()))
      ∧ returned (exec (.ptOther 0x01) start) = some (.fieldCheck (.error .unsupportedPacketType)) := by
  decide +kernel

/-- R78, R186: the address fields of F4, F1, F2, F3 and of a reserved selector. -/
theorem test_address_rows :
    returned (exec (.ac000 0x02 [0x0A, 0x0B, 0x0C, 0x00]) start)
      = some (.addresses (.ok ([0x0A, 0x0B, 0x0C], none, [0x00])))
      ∧ returned (exec (.ac001 0x22 [0x01, 0x9A, 0x2B, 0x3C, 0x00]) start)
        = some (.addresses (.ok ([0x01, 0x9A, 0x2B, 0x3C], none, [0x00])))
      ∧ returned (exec (.ac010 0x40 [0x01, 0x9A, 0x2B, 0x3D, 0xFF, 0xFF, 0xFF, 0xFF, 0x85]) start)
        = some (.addresses (.ok ([0x01, 0x9A, 0x2B, 0x3D], some [0xFF, 0xFF, 0xFF, 0xFF], [0x85])))
      ∧ returned (exec (.ac011 0x71 [0x00, 0x00, 0x01, 0x9A, 0x2B, 0x3E, 0x08]) start)
        = some (.addresses (.ok ([0x00, 0x00, 0x01, 0x9A, 0x2B, 0x3E], none, [0x08])))
      ∧ returned (exec (.acReserved 0x82 [0x01]) start)
        = some (.addresses (.error .unsupportedAddressControl)) := by decide +kernel

/-- R80, R183: F1's header and F3's. -/
theorem test_extended_header_rows :
    returned (exec (.xhAbsent 0x22 [0x01]) start) = some (.extHeader (.ok (none, [0x01])))
      ∧ returned (exec (.xhPresent 0x71 [0x0F, 0x00]) start) = some (.extHeader (.ok (some 0x0F, [0x00]))) := by
  decide +kernel

/-- R79, R188: the data of F2, F3, F1; kind 3; §6 E8 after the header byte 2F. -/
theorem test_kind_rows :
    returned (exec (.kindRps 0x40 [0x85, 0x92]) start) = some (.kindData (.ok (.rps, [0x85], [0x92])))
      ∧ returned (exec (.kindOneByte 0x71 [0x08, 0x38]) start) = some (.kindData (.ok (.oneByte, [0x08], [0x38])))
      ∧ returned (exec (.kindFourByte 0x22 [0x00, 0x98, 0xC1, 0x08, 0x38]) start)
        = some (.kindData (.ok (.fourByte, [0x00, 0x98, 0xC1, 0x08], [0x38])))
      ∧ returned (exec (.kindReserved 0x23 [0x00]) start) = some (.kindData (.error .unsupportedTelegramKind))
      ∧ returned (exec (.kindExt 0x2F [0x07, 0x01, 0x9A, 0x2B, 0x3C]) start)
        = some (.kindData (.error .unsupportedTelegramKind)) := by decide +kernel

/-- R224, R225. -/
theorem test_code_rows :
    returned (exec .contactOpen start) = some (.contact .opened)
      ∧ returned (exec (.contactClosed 0x09) start) = some (.contact .closed)
      ∧ returned (exec (.rockerBi 0x88) start) = some (.rocker [.bi])
      ∧ returned (exec (.rockerBo 0x85) start) = some (.rocker [.bo])
      ∧ returned (exec (.rockerAi 0x82) start) = some (.rocker [.ai])
      ∧ returned (exec (.rockerAo 0x85) start) = some (.rocker [.ao]) := by decide +kernel

/-- R281: a reset turn in mid-frame (§9 P5). -/
theorem test_reset_turn :
    asmAfter (step { atAsm .readBody (frameF1.take 5) with chan := [frameF1], turns := [.reset] })
      = some ⟨.waitSync, [], [], []⟩ := by decide +kernel

/-- R286, 92 D7, R257: with the transport not open a call is answered and ASM's turn passes. -/
theorem test_transport_not_open :
    returned (step { State.boot exampleConfig false with turns := [.call .verify "" [0x00]] }) = some (.boolean true)
      ∧ asmAfter (step { State.boot exampleConfig false with byteIn := [0x55], turns := [.asm] })
        = some ⟨.waitSync, [], [], []⟩ := by decide +kernel

/-! ### Witnesses: for each statement with hypotheses, a state and operands that meet them -/

/-- Whether an outcome is a next state. -/
def isNext (o : Host.Outcome State Fault Refusal) : Bool := (after o).isSome

theorem isNext_iff (o : Host.Outcome State Fault Refusal) : isNext o = true ↔ ∃ t, o = .next t := by
  cases o <;> simp [isNext, after]

theorem witness_DecodeEncodeRoundTrip :
    (Instr.parseTelegram envelopeF1).wf = true ∧ (Instr.dispatch telegramF2).wf = true
      ∧ (Instr.kindReserved 0x03 []).wf = true ∧ (Instr.kindReserved 0xFE []).wf = true := by decide +kernel

theorem witness_EncodeDecodeRoundTrip :
    decode ⟨.call (.rockerCode .bo), "", [0x85]⟩ = .ok (.rockerBo 0x85)
      ∧ decode ⟨.call .decode, "10-03", telegramBytes telegramF1⟩ = .ok (.decode "10-03" telegramF1) := by
  decide +kernel

/-- A machine whose transport is not open, with a byte and a frame waiting. -/
def shut : State := { State.boot exampleConfig false with byteIn := [0x55], chan := [frameF1] }

/-- One state for each clause: a call, with the transport open or not, a waiting byte, a waiting frame. -/
theorem witness_StepRunsDecodedOperation :
    start.serialOpen = true
      ∧ ({ start with turns := [.call .crc8 "" [0x01]] }).turns = .call .crc8 "" [0x01] :: []
      ∧ decode ⟨.call .crc8, "", [0x01]⟩ = .ok (.crc8 [0x01])
      ∧ (shut.serialOpen = false ∧ ({ shut with turns := [.call .crc8 "" [0x01]] }).turns = .call .crc8 "" [0x01] :: [])
      ∧ ({ start with byteIn := [0x55], turns := [.asm] }).asmHeld = false
      ∧ ({ start with chan := [frameF1], turns := [.pipe] }).chan ≠ [] := by decide +kernel

/-- A held state: BLOCK_PRODUCER, one byte short of the frame, the channel of one frame full. -/
def held : State :=
  { atChannel (.bounded 0) .blockProducer [frameF1] with
    asmSt := .readBody, frameBuf := Memory.ofBytes (frameF3.take 18), byteIn := [0x0B] }

theorem witness_UnscheduledTurnGoesToAsmThenPipe :
    ({ start with byteIn := [0x55] }).turns = [] ∧ ({ start with byteIn := [0x55] }).asmHeld = false
      ∧ held.turns = [] ∧ held.asmHeld = true ∧ held.chan ≠ [] ∧ held.byteIn ≠ []
      ∧ start.serialOpen = true ∧ start.turns = [] ∧ start.byteIn = [] ∧ start.chan = [] := by decide +kernel

theorem witness_TurnWithoutEnabledStepChangesNothing :
    held.serialOpen = true ∧ ({ held with turns := [.asm] }).turns = .asm :: [] ∧ held.asmHeld = true
      ∧ ({ start with turns := [.asm] }).byteIn = [] ∧ ({ start with turns := [.pipe] }).chan = []
      ∧ (shut.serialOpen = false ∧ shut.byteIn ≠ [] ∧ shut.chan ≠ []) := by
  decide +kernel

theorem witness_ResetTurnRestoresResetValues :
    ({ held with turns := [.reset] }).turns = .reset :: [] ∧ ({ shut with turns := [.reset] }).turns = .reset :: [] := by
  decide +kernel

theorem witness_ResidueOfCheckedSequenceIsZero : exampleConfig.crcTable = crcTable := rfl

theorem witness_OneCorruptedByteFailsVerify :
    exampleConfig.crcTable = crcTable ∧ (0x00 : Byte) ≠ 0x01 := ⟨rfl, by decide⟩

theorem witness_WaitSyncStartsOrDiscards : start.frameBuf = [] ∧ (0x54 : Byte) ≠ 0x55 := by decide

/-- The empty buffer, and the longest with room for a byte. -/
theorem witness_LengthBytesAreAppended :
    start.frameBuf = Memory.ofBytes [] ∧ ([] : List Byte).length < 65535
      ∧ ∀ bs : List Byte, bs.length = 65534 → (atAsm .readLenHi bs).frameBuf = Memory.ofBytes bs ∧ bs.length < 65535 :=
  ⟨rfl, by decide, fun _ h => ⟨rfl, by omega⟩⟩

/-- §4 A7 and A8: 65535 and 65536. -/
theorem witness_OptLenAcceptsOrDropsHeader :
    (atAsm .readOptLen [0x55, 0xFF, 0xF8]).frameBuf = Memory.ofBytes [0x55, 0xFF, 0xF8]
      ∧ 6 + (256 * (0xFF : Byte).toNat + (0xF8 : Byte).toNat) + (0x00 : Byte).toNat + 1 = 65535
      ∧ 6 + (256 * (0xFF : Byte).toNat + (0xF8 : Byte).toNat) + (0x01 : Byte).toNat + 1 = 65536 := by decide +kernel

/-- Two bytes short, one byte short with room, one byte short of it and the channel full; the longest frame. -/
theorem witness_BodyAppendsOrEmitsFrame :
    (frameTotal (frameF1.take 17) = some 19 ∧ (frameF1.take 17).length + 1 < 19)
      ∧ (frameTotal (frameF1.take 18) = some 19 ∧ (frameF1.take 18).length + 1 = 19
        ∧ (atAsm .readBody (frameF1.take 18)).chanHasRoom = true)
      ∧ ((atChannel (.bounded 0) .dropOldest [frameF5]).chanHasRoom = false
        ∧ (atChannel (.bounded 0) .dropOldest [frameF5]).cfg.fifoPolicy = .dropOldest
        ∧ (atChannel (.bounded 0) .dropOldest [frameF5]).chan = frameF5 :: [])
      ∧ frameTotal [0x55, 0xFF, 0xF8, 0x00] = some 65535 := by decide +kernel

/-- Unbounded; room for the last frame; full under each policy. -/
theorem witness_DeliverFollowsFullPolicy :
    start.cfg.fifoDepth = .unbounded
      ∧ (atChannel (.bounded 1) .dropOldest [frameF1]).chan.length < 1 + 1
      ∧ 0 + 1 ≤ (atChannel (.bounded 0) .dropOldest [frameF1]).chan.length
      ∧ (held.serialOpen = true ∧ held.cfg.fifoDepth = .bounded 0 ∧ held.cfg.fifoPolicy = .blockProducer
        ∧ held.asmSt = .readBody ∧ held.frameBuf.total = some (held.asmLen + 1) ∧ held.chan.length = 0 + 1
        ∧ isNext (exec .pipeStep held) = true) := by decide +kernel

/-- The frame goes on; a byte is discarded; a header is dropped; a frame is emitted. -/
theorem witness_AssemblerFrame :
    isNext (exec (.asmLenHi 0x00) (atAsm .readLenHi [0x55])) = true
      ∧ isNext (exec (.asmWaitSync 0x54) start) = true
      ∧ isNext (exec (.asmOptLen 0xFF) (atAsm .readOptLen [0x55, 0xFF, 0xFF])) = true
      ∧ isNext (exec (.asmBody 0xAF) (atAsm .readBody (frameF1.take 18))) = true := by decide +kernel

/-- One byte short of F1 with a frame queued; the last byte waits. -/
def oneShort : State := { atAsm .readBody (frameF1.take 18) with byteIn := [0xAF], chan := [frameF5] }

theorem witness_StepKeepsMemoryCanonical : oneShort.frameBuf.wf = true ∧ isNext (step oneShort) = true := by
  decide +kernel

theorem witness_StepKeepsStateInvariant : oneShort.Inv ∧ isNext (step oneShort) = true := by decide +kernel

theorem witness_StepKeepsConfiguration : isNext (step oneShort) = true ∧ isNext (step held) = true := by decide +kernel

theorem witness_OnlyUnopenedTransportIsFatal :
    (shut.serialOpen = false ∧ shut.turns = [] ∧ ∀ ts, shut.turns ≠ .reset :: ts)
      ∧ (∀ turn ∈ [Turn.asm, .pipe, .reset, .byte 0x55, .call .crc8 "" []],
        isNext (step { shut with turns := [turn] }) = true)
      ∧ ({ shut with turns := [.asm] }).turns = .asm :: [] ∧ ({ shut with turns := [.pipe] }).turns = .pipe :: []
      ∧ shut.Inv ∧ held.Inv := by
  refine ⟨⟨rfl, rfl, nofun⟩, by decide +kernel⟩

theorem witness_OnlyUndecodableCallsAreRefused :
    step { start with turns := [.call .dispatch "" [0x04]] } = .refused (.undecodable .notATelegram) := rfl

/-- F1 in one group, in three with an empty one, and byte by byte. -/
theorem witness_SplitFeedEmitsFrameOnce :
    ∀ groups ∈ [[frameF1], [frameF1.take 10, [], frameF1.drop 10], frameF1.map fun b => [b]],
      let s : State := { start with turns := groups.flatMap feedGroup ++ [.pipe] }
      s.serialOpen = true ∧ s.asmSt = .waitSync ∧ s.frameBuf = [] ∧ s.byteIn = [] ∧ s.chanHasRoom = true
        ∧ FrameOk groups.flatten ∧ s.turns = groups.flatMap feedGroup ++ [.pipe] := by decide +kernel

theorem witness_GarbageBeforeSyncIsDiscarded :
    let s : State := { start with byteIn := [0x00, 0xFF, 0x13] ++ frameF1, turns := List.replicate 3 .asm ++ [.pipe] }
    s.serialOpen = true ∧ s.asmSt = .waitSync ∧ (∀ b ∈ ([0x00, 0xFF, 0x13] : List Byte), b ≠ 0x55)
      ∧ s.byteIn = [0x00, 0xFF, 0x13] ++ frameF1 ∧ s.turns = List.replicate 3 .asm ++ [.pipe] := by decide +kernel

/-- §4 A6 and the smallest oversize header. -/
theorem witness_OversizeHeaderIsDiscardedWhole :
    let s : State := { start with byteIn := 0x55 :: 0xFF :: 0xF8 :: 0x01 :: [0x00], turns := List.replicate 4 .asm ++ [] }
    s.serialOpen = true ∧ s.asmSt = .waitSync ∧ s.frameBuf = []
      ∧ 65535 < 6 + (256 * (0xFF : Byte).toNat + (0xF8 : Byte).toNat) + (0x01 : Byte).toNat + 1
      ∧ 65535 < 6 + (256 * (0xFF : Byte).toNat + (0xFF : Byte).toNat) + (0xFF : Byte).toNat + 1
      ∧ s.byteIn = 0x55 :: 0xFF :: 0xF8 :: 0x01 :: [0x00] ∧ s.turns = List.replicate 4 .asm ++ [] := by decide +kernel

/-- The body of the longest frame and 65531 bytes; one byte of a header and 65534 bytes. -/
theorem witness_AssemblerResynchronises :
    (∀ bs : List Byte, bs.length = 65531 →
      let s : State := { atAsm .readBody [0x55, 0xFF, 0xF8, 0x00] with byteIn := bs, turns := List.replicate 65531 Turn.asm ++ [] }
      s.Inv ∧ s.serialOpen = true ∧ s.cfg.fifoPolicy = .dropOldest ∧ 65531 ≤ s.byteIn.length)
      ∧ ∀ bs : List Byte, bs.length = 65534 →
        let s : State := { atAsm .readLenHi [0x55] with byteIn := bs, turns := List.replicate 65534 Turn.asm ++ [] }
        s.Inv ∧ s.serialOpen = true ∧ s.cfg.fifoPolicy = .dropOldest ∧ 65534 ≤ s.byteIn.length := by
  have h1 : (atAsm .readBody [0x55, 0xFF, 0xF8, 0x00]).Inv := by decide +kernel
  have h2 : (atAsm .readLenHi [0x55]).Inv := by decide +kernel
  exact ⟨fun _ h => ⟨h1, rfl, rfl, h.ge⟩, fun _ h => ⟨h2, rfl, rfl, h.ge⟩⟩

/-- §5 E1 and E2. -/
theorem witness_AssembledFrameFailsOnlyTwoWays :
    FrameOk frameE1 ∧ parseEnvelope exampleConfig frameE1 = .error .headerChecksumMismatch
      ∧ FrameOk frameE2 ∧ parseEnvelope exampleConfig frameE2 = .error .unsupportedPacketType := by decide +kernel

/-- F1, and an envelope of the largest total. -/
theorem witness_EnvelopeOfLaidOutFrame :
    (envelopeF1.wf = true ∧ envelopeF1.packetType = 10
      ∧ 6 + envelopeF1.dataLength.toNat + envelopeF1.optionalLength.toNat + 1 ≤ 65535)
      ∧ ∀ bs : List Byte, bs.length = 65528 →
        let e : Envelope := ⟨65528, 0, 10, bs, [], 0x00⟩
        e.wf = true ∧ e.packetType = 10 ∧ 6 + e.dataLength.toNat + e.optionalLength.toNat + 1 = 65535 :=
  ⟨by decide, fun bs h => ⟨by simp [Envelope.wf, h], rfl, by simp⟩⟩

/-- A data length of 6, and of 0. -/
theorem witness_ShortTelegramIsRejected :
    ({ envelopeF1 with dataLength := 6 }).dataLength.toNat ≤ 6
      ∧ ({ envelopeF1 with dataLength := 0 }).dataLength.toNat ≤ 6 := by decide

theorem witness_ParsedTelegramHasItsShape :
    parseTelegram exampleConfig envelopeF1 = .ok telegramF1 ∧ parseTelegram exampleConfig envelopeF2 = .ok telegramF2
      ∧ envelopeF1.payload ++ envelopeF1.optional
        = 0x22 :: [0x01, 0x9A, 0x2B, 0x3C, 0x00, 0x98, 0xC1, 0x08, 0x38, 0x01, 0x2D] := by decide +kernel

theorem witness_FrameByteRowsPassOrFail : (0x54 : Byte) ≠ 0x55 ∧ (0x0B : Byte) ≠ 10 := by decide

/-- Exactly enough bytes, and one fewer, for each row. -/
theorem witness_AddressRowsReadTheirWidths :
    let bs : List Byte := [0x01, 0x9A, 0x2B, 0x3D, 0xFF, 0xFF, 0xFF, 0xFF]
    (3 ≤ (bs.take 3).length ∧ (bs.take 2).length < 3) ∧ (4 ≤ (bs.take 4).length ∧ (bs.take 3).length < 4)
      ∧ (8 ≤ bs.length ∧ (bs.take 7).length < 8) ∧ (6 ≤ (bs.take 6).length ∧ (bs.take 5).length < 6) := by decide

theorem witness_KindRowsReadTheirDataOrFail :
    ([0x00, 0x00, 0x00] : List Byte).length < 4
      ∧ readHeaderAddresses 0x2F [0x01, 0x9A, 0x2B] = .error .telegramTruncated
      ∧ readHeaderAddresses 0x8F [0x01, 0x9A, 0x2B] = .error .unsupportedAddressControl
      ∧ readHeaderAddresses 0x2F [0x01, 0x9A, 0x2B, 0x3C] = .ok ([0x01, 0x9A, 0x2B, 0x3C], none, []) := by
  decide +kernel

theorem witness_CodeRowsGiveContactAndLabels :
    (0x09 : Byte) ≠ 0x08 ∧ (0x88 : Byte) &&& 0x88 = 0x88 ∧ (0x85 : Byte) &&& 0x84 = 0x84
      ∧ (0x8A : Byte) &&& 0x82 = 0x82 ∧ (0x81 : Byte) &&& 0x81 = 0x81 := by decide

theorem witness_ParserStagesFollowHeaderRows :
    decode ⟨.call .headerExt, "", [0x71, 0x0F]⟩ = .ok (.xhPresent 0x71 [0x0F])
      ∧ decode ⟨.call .headerAddress, "", [0xFF]⟩ = .ok (.acReserved 0xFF [])
      ∧ (decode ⟨.call .headerKind, "", [0x0E]⟩ = .ok (.kindReserved 0x0E []) ∧ (0x0E : Byte) &&& 0x0F ≠ 0x0F)
      ∧ (decode ⟨.call .headerKind, "", [0x22, 0x00]⟩ = .ok (.kindFourByte 0x22 [0x00])
        ∧ (0x22 : Byte) &&& 0x0F ≠ 0x0F) := by decide +kernel

theorem witness_TemperatureDecodersFollowFormulas : ([0x00, 0x98] : List Byte).length < 3 := by decide

theorem witness_ReadingsStayInRange :
    decode1003 [0x00, 0x98, 0xC1] = .ok (.temperatureSoilMoisture (496 / 51) 0x98)
      ∧ decode0205 [0x00, 0x98, 0x00] = .ok (.temperature 40)
      ∧ decode0401 [0x00, 0xFF, 0xFF] = .ok (.temperatureHumidity (204 / 5) 102) := by decide +kernel

theorem witness_DecodeRunsTheProfilesDecoder :
    "99-99" ∉ ["10-03", "02-05", "04-01", "00-01", "02-04"] := by decide +kernel

theorem witness_NormalizeIdStripsZeroPair :
    ¬ (([0x00, 0x01, 0x01, 0x9A, 0x2B, 0x3E] : List Byte).length = 6
        ∧ ([0x00, 0x01, 0x01, 0x9A, 0x2B, 0x3E] : List Byte).take 2 = [0x00, 0x00])
      ∧ ¬ (([0x00, 0x00, 0x00, 0x00] : List Byte).length = 6
        ∧ ([0x00, 0x00, 0x00, 0x00] : List Byte).take 2 = [0x00, 0x00]) := by decide

theorem witness_DirectoryKeyIsLowercaseHex :
    ([0x01, 0x9A] : List Byte)[1]? = some 0x9A := by decide

theorem witness_DirectoryKeysAreDistinct : keyOf [0x01, 0x9A] = keyOf [0x01, 0x9A] := rfl

/-- No entry; a label with no profile; a label with one. -/
theorem witness_DispatchResolvesInOrder :
    start.cfg.deviceDirectory.lookup (keyOf (normalise [0x01, 0x9A, 0x2B, 0x3F])) = none
      ∧ start.cfg.deviceDirectory.lookup (keyOf (normalise [0x0A, 0x0B, 0x0D])) = some "LEGACY"
      ∧ start.cfg.modelToProfile.lookup "LEGACY" = none
      ∧ start.cfg.deviceDirectory.lookup (keyOf (normalise [0x00, 0x00, 0x01, 0x9A, 0x2B, 0x3E])) = some "DOOR"
      ∧ start.cfg.modelToProfile.lookup "DOOR" = some "00-01" := by decide +kernel

/-- The clauses in order: empty; §8 E1; §8 F5; §8 F1u; §8 F1; F1 without decoders. -/
theorem witness_PipeStepHandlesOneFrame :
    start.chan = [] ∧ parseEnvelope start.cfg frameE1 = .error .headerChecksumMismatch
      ∧ (∃ v, parseEnvelope start.cfg frameF5 = .ok v
        ∧ parseTelegram start.cfg v = .error .unsupportedShortTelegram)
      ∧ (∃ v t, parseEnvelope start.cfg frameF1u = .ok v ∧ parseTelegram start.cfg v = .ok t
        ∧ start.cfg.decodersPresent = true ∧ dispatch start.cfg t = .error .unmappedDevice)
      ∧ (parseEnvelope start.cfg frameF1 = .ok envelopeF1 ∧ parseTelegram start.cfg envelopeF1 = .ok telegramF1
        ∧ dispatch start.cfg telegramF1 = .ok (.temperatureSoilMoisture (496 / 51) 152))
      ∧ (parseEnvelope { exampleConfig with decodersPresent := false } frameF1 = .ok envelopeF1
        ∧ parseTelegram { exampleConfig with decodersPresent := false } envelopeF1 = .ok telegramF1) := by
  refine ⟨rfl, by decide +kernel,
    ⟨⟨6, 2, 10, [0x01, 0x0A, 0x0B, 0x0C, 0x09, 0x3F], [0x01, 0x40], 0x30⟩, by decide +kernel⟩,
    ⟨⟨10, 2, 10, [0x22, 0x01, 0x9A, 0x2B, 0x3F, 0x00, 0x98, 0xC1, 0x08, 0x38], [0x01, 0x2D], 0x9A⟩,
      { telegramF1 with originatorId := [0x01, 0x9A, 0x2B, 0x3F] }, by decide +kernel⟩, by decide +kernel⟩

theorem witness_PipeStepFrame :
    isNext (exec .pipeStep { start with chan := [frameF1, frameE1] }) = true ∧ isNext (exec .pipeStep start) = true := by
  decide +kernel

/-- A record with a reading, one of an envelope error, one of a decode error, one without decoders. -/
theorem witness_RecordFieldsAgree :
    (∀ frame ∈ [frameF1, frameE1, frameF1u], isNext (exec .pipeStep { start with chan := [frame] }) = true)
      ∧ isNext (exec .pipeStep
          { start with chan := [frameF1], cfg := { exampleConfig with decodersPresent := false } }) = true := by
  decide +kernel

theorem witness_DrainEmitsOneRecordPerFrameInOrder :
    let s : State := { start with chan := [frameF1, frameE1], turns := [.pipe, .pipe, .asm] }
    s.serialOpen = true ∧ s.turns = List.replicate s.chan.length .pipe ++ [.asm] := by decide +kernel

theorem witness_CallsReturnAndWriteNothing : (encode (.dispatch telegramF1)).slot = .call .dispatch := rfl

theorem witness_LastResultIsNeverRead :
    (isNext (step { start with byteIn := [0x55], turns := [.asm] }) = true ∧ Turn.asm.isCall = false)
      ∧ (Turn.call .crc8 "" []).isCall = true := by decide +kernel

theorem witness_AgentStepsCommute :
    oneShort.serialOpen = true ∧ oneShort.cfg.fifoDepth = .unbounded ∧ oneShort.chan ≠ [] := by decide +kernel

/-- Under either policy; the held state drains too. -/
theorem witness_UnscheduledMachineDrains :
    (held.Inv ∧ held.serialOpen = true ∧ held.turns = [])
      ∧ (let s : State := { start with byteIn := frameF1, chan := [frameF3] }
        s.Inv ∧ s.serialOpen = true ∧ s.turns = []) := by decide +kernel

theorem witness_FedFrameIsReportedParsed :
    (start.serialOpen = true ∧ start.asmSt = .waitSync ∧ start.frameBuf = [] ∧ start.byteIn = [] ∧ start.chan = [])
      ∧ (envelopeF1.wf = true ∧ envelopeF1.packetType = 10
        ∧ 6 + envelopeF1.dataLength.toNat + envelopeF1.optionalLength.toNat + 1 ≤ 65535)
      ∧ parseTelegram start.cfg envelopeF1 = .ok telegramF1 ∧ frameOfEnvelope start.cfg envelopeF1 = frameF1 := by
  decide +kernel

end Sys2Proof.Machine.Tests
end

section
/-!
PROOFS. The statements of spec/00_scope.md: a direct operation is a pure function of its operands and the constant state (R16), and no step writes the constant state (R9). What each kind of operation can write is said once, for the three ways an operation is selected (R71).
-/

namespace Sys2Proof.Machine

/-! ### Direct operations (R16, R72) -/

/-- A direct operation returns an answer that reads its operands and the constant state only, and
writes nothing else (R16). The five operations that do read the constant state name their function. -/
theorem exec_eq_answer_of_call {i : Instr} {c : CallSlot} (h : (encode i).slot = .call c) :
    ∃ r : Config → Result, ∀ s : State, exec i s = answer (r s.cfg) s := by
  cases i with
  | asmWaitSync | asmLenHi | asmLenLo | asmOptLen | asmBody | pipeStep => cases h
  | crc8 bs => exact ⟨fun cfg => .u8 (crc8 cfg bs), fun _ => rfl⟩
  | verify bs expected => exact ⟨fun cfg => .boolean (verify cfg bs expected), fun _ => rfl⟩
  | parseEnvelope frame => exact ⟨fun cfg => .envelope (parseEnvelope cfg frame), fun _ => rfl⟩
  | parseTelegram envelope => exact ⟨fun cfg => .telegram (parseTelegram cfg envelope), fun _ => rfl⟩
  | dispatch telegram => exact ⟨fun cfg => .reading (dispatch cfg telegram), fun _ => rfl⟩
  | _ => exact ⟨fun _ => _, fun _ => rfl⟩

/-- Settles O56: what a direct operation answers, from `exec_eq_answer_of_call`. -/
theorem callsReturnAndWriteNothing : Obligations.CallsReturnAndWriteNothing := by
  intro i c s h
  obtain ⟨r, hr⟩ := exec_eq_answer_of_call h
  exact ⟨r s.cfg, by rw [hr, answer_eq]⟩

/-! ### What the agents' operations write (R120, R240) -/

/-- An operation is a direct call, the assembler's in some state of `asm_st`, or PIPE's (R71). -/
theorem call_or_asmOperation_or_pipeStep (i : Instr) :
    (∃ c, (encode i).slot = .call c) ∨ (∃ st b, i = asmOperation st b) ∨ i = .pipeStep := by
  cases i with
  | asmWaitSync b => exact .inr (.inl ⟨.waitSync, b, rfl⟩)
  | asmLenHi b => exact .inr (.inl ⟨.readLenHi, b, rfl⟩)
  | asmLenLo b => exact .inr (.inl ⟨.readLenLo, b, rfl⟩)
  | asmOptLen b => exact .inr (.inl ⟨.readOptLen, b, rfl⟩)
  | asmBody b => exact .inr (.inl ⟨.readBody, b, rfl⟩)
  | pipeStep => exact .inr (.inr rfl)
  | _ => exact .inl ⟨_, rfl⟩

/-- Everything ASM_WAITSYNC can do when it does not fault (R121). -/
theorem execAsmWaitSync_eq_next {s t : State} {b : Byte} (h : execAsmWaitSync b s = .next t) :
    (b = 0x55 ∧ t = { s with frameBuf := s.frameBuf.write s.asmLen b, asmSt := .readLenHi })
      ∨ (b ≠ 0x55 ∧ t = { s with trace := s.trace ++ [.discard b], asmSt := .waitSync }) := by
  unfold execAsmWaitSync at h
  split at h
  · next hb => exact .inl ⟨hb, (appendThen_eq_ok.mp (outcomeOf_eq_next.mp h)).2⟩
  · next hb => exact .inr ⟨hb, (Host.Outcome.next.inj h).symm⟩

/-- The assembler's operations write `asm_st`, the frame buffer, the channel and the trace only. -/
theorem exec_asmOperation_frame {st : AsmSt} {b : Byte} {s t : State}
    (h : exec (asmOperation st b) s = .next t) :
    t = { s with asmSt := t.asmSt, frameBuf := t.frameBuf, chan := t.chan, trace := t.trace } := by
  cases st with
  | waitSync => obtain ⟨-, rfl⟩ | ⟨-, rfl⟩ := execAsmWaitSync_eq_next h <;> rfl
  | readLenHi | readLenLo => obtain ⟨-, rfl⟩ := appendThen_eq_ok.mp (outcomeOf_eq_next.mp h); rfl
  | readOptLen => obtain ⟨_, -, -, ⟨-, rfl⟩ | ⟨-, rfl⟩⟩ := execAsmOptLen_eq_next h <;> rfl
  | readBody =>
    obtain ⟨_, -, -, ⟨-, rfl⟩ | ⟨-, -, rfl⟩ | ⟨-, -, -, rfl⟩⟩ := execAsmBody_eq_next h <;> rfl

/-- PIPE_STEP waits on an empty channel; otherwise it takes the head and emits one record, which
names that frame (R240). -/
theorem exec_pipeStep_eq_next {s t : State} (h : exec .pipeStep s = .next t) :
    (s.chan = [] ∧ t = s) ∨ ∃ frame rest r, s.chan = frame :: rest ∧ r.frame = frame
      ∧ t = ({ s with chan := rest } : State).emitResult r := by
  change execPipeStep s = .next t at h
  unfold execPipeStep at h
  split at h
  · next hc => exact .inl ⟨hc, (Host.Outcome.next.inj h).symm⟩
  · next frame rest hc =>
    obtain ⟨r, hr, hf⟩ := pipeFrame_emits { s with chan := rest } frame
    exact .inr ⟨frame, rest, r, hc, hf, by rw [← hr, Host.Outcome.next.inj h]⟩

/-! ### The constant state (R9) -/

/-- No operation writes the constant state. -/
theorem exec_keeps_cfg {i : Instr} {s t : State} (h : exec i s = .next t) : t.cfg = s.cfg := by
  obtain ⟨c, hc⟩ | ⟨st, b, rfl⟩ | rfl := call_or_asmOperation_or_pipeStep i
  · obtain ⟨r, hr⟩ := exec_eq_answer_of_call hc
    rw [hr, answer_eq] at h
    rw [← Host.Outcome.next.inj h]
  · rw [exec_asmOperation_frame h]
  · obtain ⟨-, rfl⟩ | ⟨_, _, _, -, -, rfl⟩ := exec_pipeStep_eq_next h <;> rfl

/-- Everything a step can do: the schedule's own part alone, a reset after it, or an operation run
in the state it leads to. -/
theorem step_eq_next {s t : State} (h : step s = .next t) :
    ∃ u, SameButQueues s u ∧ (t = u ∨ t = u.applyReset ∨ ∃ i, exec i u = .next t) := by
  have run : ∀ (x : Txn) (u : State), fetch s = .run x u → ∃ i, exec i u = .next t := by
    intro x u hf
    simp only [step, hf] at h
    cases hd : decode x with
    | ok i => exact ⟨i, by simpa only [hd] using h⟩
    | error e => simp [hd] at h
  have settled : ∀ u : State, fetch s = .settled u → t = u := by
    intro u hf
    simp only [step, hf] at h
    exact (Host.Outcome.next.inj h).symm
  obtain ⟨u, hu, hf | ⟨-, hf⟩ | ⟨-, -, _, hf⟩ | ⟨-, -, hf⟩ | ⟨_, _, _, _, -, hf⟩⟩ := fetch_cases s
  · exact ⟨u, hu, .inl (settled u hf)⟩
  · exact ⟨u, hu, .inr (.inl (settled _ hf))⟩
  all_goals exact ⟨u, hu, .inr (.inr (run _ u hf))⟩

/-- Settles O23: a turn's own part, a reset and every operation keep the constant state, and boot
takes it as supplied. -/
theorem stepKeepsConfiguration : Obligations.StepKeepsConfiguration := by
  refine ⟨fun s t h => ?_, fun _ _ => rfl⟩
  obtain ⟨u, hu, rfl | rfl | ⟨i, hi⟩⟩ := step_eq_next h
  · exact hu.cfg
  · rw [applyReset_cfg, hu.cfg]
  · rw [exec_keeps_cfg hi, hu.cfg]

end Sys2Proof.Machine
end

section
/-!
PROOFS. The statements of spec/10_state.md on the reachable states: the state after reset (R37) meets the invariant of R25 and R27, and every step keeps it.
-/

namespace Sys2Proof.Machine

/-! ### What a step runs (R71, R72) -/

theorem step_of_settled {s u : State} (hf : fetch s = .settled u) : step s = .next u := by
  simp only [step, hf]

theorem step_of_run_ok {s u : State} {x : Txn} {i : Instr} (hf : fetch s = .run x u) (hd : decode x = .ok i) :
    step s = exec i u := by
  simp only [step, hf, hd]

theorem step_of_run_error {s u : State} {x : Txn} {e : DecodeError} (hf : fetch s = .run x u)
    (hd : decode x = .error e) : step s = .refused (.undecodable e) := by
  simp only [step, hf, hd]

theorem decodeOnTelegram_eq_ok {op : Telegram → Instr} {bs : List Byte} {i : Instr}
    (h : decodeOnTelegram op bs = .ok i) : ∃ t, i = op t := by
  unfold decodeOnTelegram at h
  split at h
  · next t _ => exact ⟨t, (Except.ok.inj h).symm⟩
  · cases h

/-- A header row is read in the slot of its field. -/
theorem decodeHeader_slot (h : Byte) (rest : List Byte) :
    (encode (decodeHeaderAddress h rest)).slot = .call .headerAddress
      ∧ (encode (decodeHeaderExt h rest)).slot = .call .headerExt
      ∧ (encode (decodeHeaderKind h rest)).slot = .call .headerKind := by
  refine ⟨?_, ?_, ?_⟩
  · unfold decodeHeaderAddress
    split_ifs <;> rfl
  · unfold decodeHeaderExt
    split_ifs <;> rfl
  · unfold decodeHeaderKind
    split_ifs <;> rfl

/-- What decodes in a call slot is an operation of that slot, so no call runs an agent's
operation (R71, R72). -/
theorem decodeCall_slot {c : CallSlot} {text : String} {bs : List Byte} {i : Instr}
    (h : decodeCall c text bs = .ok i) : (encode i).slot = .call c := by
  cases c with
  | crc8 | parseEnvelope | normalizeId | directoryKey => cases h; rfl
  | verify => obtain ⟨_, -, rfl⟩ := map_eq_ok.mp h; rfl
  | parseTelegram =>
    simp only [decodeCall] at h
    split at h <;> cases h
    rfl
  | decode | dispatch => obtain ⟨_, rfl⟩ := decodeOnTelegram_eq_ok h; rfl
  | profile =>
    simp only [decodeCall, decodeProfile] at h
    split_ifs at h <;> cases h <;> rfl
  | frameByte0 | frameByte4 | contactCode =>
    obtain ⟨_, -, rfl⟩ := map_eq_ok.mp h
    split_ifs <;> rfl
  | headerAddress => obtain ⟨_, -, rfl⟩ := map_eq_ok.mp h; exact (decodeHeader_slot _ _).1
  | headerExt => obtain ⟨_, -, rfl⟩ := map_eq_ok.mp h; exact (decodeHeader_slot _ _).2.1
  | headerKind => obtain ⟨_, -, rfl⟩ := map_eq_ok.mp h; exact (decodeHeader_slot _ _).2.2
  | rockerCode label =>
    obtain ⟨b, -, h⟩ := bind_eq_ok.mp h
    unfold decodeRocker at h
    split_ifs at h
    cases label <;> cases h <;> rfl

theorem decode_call_slot {c : CallSlot} {text : String} {bs : List Byte} {i : Instr}
    (h : decode ⟨.call c, text, bs⟩ = .ok i) : (encode i).slot = .call c := by
  unfold decode at h
  split at h
  · cases h
  · exact decodeCall_slot h

/-- Everything a step can do, by what it runs: nothing but the schedule's own part, a reset, the
operation `asm_st` selects, PIPE_STEP, or a direct call, which writes the last result only. -/
theorem step_cases {s t : State} (h : step s = .next t) :
    ∃ u, SameButQueues s u
      ∧ (t = u
        ∨ ((∃ ts, s.turns = .reset :: ts) ∧ t = u.applyReset)
        ∨ (s.serialOpen = true ∧ s.asmHeld = false ∧ ∃ b, exec (asmOperation u.asmSt b) u = .next t)
        ∨ (s.serialOpen = true ∧ s.chan ≠ [] ∧ exec .pipeStep u = .next t)
        ∨ ∃ r, t = { u with lastResult := some r }) := by
  obtain ⟨u, hu, hf | ⟨hts, hf⟩ | ⟨ho, hh, b, hf⟩ | ⟨ho, hc, hf⟩ | ⟨c, text, bytes, -, -, hf⟩⟩ := fetch_cases s
  · rw [step_of_settled hf] at h
    exact ⟨u, hu, .inl (Host.Outcome.next.inj h).symm⟩
  · rw [step_of_settled hf] at h
    exact ⟨u, hu, .inr (.inl ⟨hts, (Host.Outcome.next.inj h).symm⟩)⟩
  · rw [step_of_run_ok hf (decode_asmTxn s.asmSt b), ← hu.asmSt] at h
    exact ⟨u, hu, .inr (.inr (.inl ⟨ho, hh, b, h⟩))⟩
  · rw [step_of_run_ok hf decode_pipeAgent] at h
    exact ⟨u, hu, .inr (.inr (.inr (.inl ⟨ho, hc, h⟩)))⟩
  · cases hd : decode ⟨.call c, text, bytes⟩ with
    | error e => rw [step_of_run_error hf hd] at h; cases h
    | ok i =>
      obtain ⟨r, hr⟩ := exec_eq_answer_of_call (decode_call_slot hd)
      rw [step_of_run_ok hf hd, hr, answer_eq] at h
      exact ⟨u, hu, .inr (.inr (.inr (.inr ⟨r u.cfg, (Host.Outcome.next.inj h).symm⟩)))⟩

/-! ### The invariant, spelled out (R25, R27) -/

/-- The buffer that R25 allows in each state of the assembler, byte by byte. -/
def AsmShape (st : AsmSt) (buf : List Byte) : Prop :=
  match st with
  | .waitSync => buf = []
  | .readLenHi => buf = [0x55]
  | .readLenLo => ∃ hi, buf = [0x55, hi]
  | .readOptLen => ∃ hi lo, buf = [0x55, hi, lo]
  | .readBody => ∃ hi lo ol rest, buf = 0x55 :: hi :: lo :: ol :: rest ∧ bodyOpen buf = true

/-- The six lines of R25 fix the buffer's shape in each state, and that shape gives the six lines. -/
theorem assemblerInv_iff (st : AsmSt) (buf : List Byte) : AssemblerInv st buf ↔ AsmShape st buf := by
  constructor
  · rintro ⟨hWait, hHi, hLo, hOpt, hBody, hSync⟩
    cases st with
    | waitSync => exact List.length_eq_zero_iff.mp (hWait.mp rfl)
    | readLenHi =>
      obtain ⟨x, rfl⟩ := List.length_eq_one_iff.mp (hHi.mp rfl)
      simpa [AsmShape] using hSync
    | readLenLo =>
      obtain ⟨x, hi, rfl⟩ := List.length_eq_two.mp (hLo.mp rfl)
      simpa [AsmShape] using hSync
    | readOptLen =>
      obtain ⟨x, hi, lo, rfl⟩ := List.length_eq_three.mp (hOpt.mp rfl)
      simpa [AsmShape] using hSync
    | readBody =>
      obtain ⟨hlen, hopen⟩ := hBody.mp rfl
      match buf, hlen with
      | x :: hi :: lo :: ol :: rest, _ =>
        obtain rfl : x = 0x55 := by simpa using hSync
        exact ⟨hi, lo, ol, rest, rfl, hopen⟩
  · intro h
    cases st with
    | waitSync => obtain rfl := h; simp [AssemblerInv]
    | readLenHi => obtain rfl := h; simp [AssemblerInv]
    | readLenLo => obtain ⟨hi, rfl⟩ := h; simp [AssemblerInv]
    | readOptLen => obtain ⟨hi, lo, rfl⟩ := h; simp [AssemblerInv]
    | readBody => obtain ⟨hi, lo, ol, rest, rfl, hopen⟩ := h; simpa [AssemblerInv] using hopen

theorem chanWithin_iff (s : State) :
    s.chanWithin = true ↔ ∀ d, depthOf s.cfg.fifoDepth = some d → s.chan.length ≤ d := by
  unfold State.chanWithin
  split <;> simp_all

theorem chanHasRoom_iff (s : State) :
    s.chanHasRoom = true ↔ ∀ d, depthOf s.cfg.fifoDepth = some d → s.chan.length < d := by
  unfold State.chanHasRoom
  split <;> simp_all

/-- What R25 and R27 ask of the channel: frames as the assembler emits them, no more than FIFO_DEPTH. -/
structure ChanInv (s : State) : Prop where
  frames : ∀ frame ∈ s.chan, FrameOk frame
  within : s.chanWithin = true

theorem inv_iff (s : State) :
    s.Inv ↔ ∃ bs, s.frameBuf = Memory.ofBytes bs ∧ AsmShape s.asmSt bs ∧ ChanInv s := by
  constructor
  · rintro ⟨hbuf, hasm, hframes, hwithin⟩
    exact ⟨s.asmBuf, hbuf, (assemblerInv_iff _ _).mp hasm, hframes, hwithin⟩
  · rintro ⟨bs, hbuf, hshape, hframes, hwithin⟩
    have hbs : s.asmBuf = bs := by rw [asmBuf_eq, hbuf, bytes_ofBytes]
    exact ⟨by rw [hbs, hbuf], by rw [hbs]; exact (assemblerInv_iff _ _).mpr hshape, hframes, hwithin⟩

/-! ### The channel's part (R27, R126) -/

/-- A channel that only lost frames keeps its part of the invariant. -/
theorem ChanInv.of_sublist {s t : State} (h : ChanInv s) (hcfg : t.cfg = s.cfg) (hc : t.chan.Sublist s.chan) :
    ChanInv t where
  frames frame hf := h.frames frame (hc.subset hf)
  within := (chanWithin_iff t).mpr fun d hd =>
    hc.length_le.trans ((chanWithin_iff s).mp h.within d (hcfg ▸ hd))

/-- A frame put behind fewer than FIFO_DEPTH frames keeps the channel within its depth. -/
theorem ChanInv.of_append {t : State} {waiting : List RawFrame} {frame : RawFrame}
    (hw : ∀ f ∈ waiting, FrameOk f) (hf : FrameOk frame) (hc : t.chan = waiting ++ [frame])
    (hroom : ∀ d, depthOf t.cfg.fifoDepth = some d → waiting.length < d) : ChanInv t where
  frames f hmem := by
    rw [hc, List.mem_append, List.mem_singleton] at hmem
    obtain hmem | rfl := hmem
    · exact hw f hmem
    · exact hf
  within := (chanWithin_iff t).mpr fun d hd => by
    rw [hc, List.length_append]
    exact hroom d hd

/-- Once the head is gone, a channel within its depth has room: the depth is positive (R126, DROP_OLDEST). -/
theorem ChanInv.tail_has_room {s : State} (h : ChanInv s) {d : Nat} (hd : depthOf s.cfg.fifoDepth = some d) :
    s.chan.tail.length < d := by
  have hpos := depthOf_pos hd
  have hle := (chanWithin_iff s).mp h.within d hd
  rw [List.length_tail]
  omega

/-! ### Each kind of step keeps the invariant -/

/-- WaitSync with an empty buffer and an empty channel meets the invariant, whatever the parameters. -/
theorem inv_of_idle {s : State} (hst : s.asmSt = .waitSync) (hbuf : s.frameBuf = []) (hchan : s.chan = []) :
    s.Inv :=
  (inv_iff s).mpr ⟨[], hbuf, by rw [hst]; rfl, by simp [hchan], (chanWithin_iff s).mpr (by simp [hchan])⟩

/-- The invariant reads the assembler's state, its buffer, the channel and the parameters; the
channel may lose frames. -/
theorem inv_of_sublist {s t : State} (h : s.Inv) (hst : t.asmSt = s.asmSt) (hbuf : t.frameBuf = s.frameBuf)
    (hcfg : t.cfg = s.cfg) (hc : t.chan.Sublist s.chan) : t.Inv := by
  obtain ⟨bs, hs, hshape, hchan⟩ := (inv_iff s).mp h
  exact (inv_iff t).mpr ⟨bs, hbuf.trans hs, hst ▸ hshape, hchan.of_sublist hcfg hc⟩

/-- The schedule's own part of a step. -/
theorem SameButQueues.inv {s u : State} (hu : SameButQueues s u) (h : s.Inv) : u.Inv :=
  inv_of_sublist h hu.asmSt hu.frameBuf hu.cfg (hu.chan ▸ List.Sublist.refl _)

/-- PIPE_STEP only takes the head of the channel (R240). -/
theorem exec_pipeStep_keeps_inv {s t : State} (h : s.Inv) (ht : exec .pipeStep s = .next t) : t.Inv := by
  obtain ⟨-, rfl⟩ | ⟨frame, rest, r, hc, -, rfl⟩ := exec_pipeStep_eq_next ht
  · exact h
  · exact inv_of_sublist h rfl rfl rfl (hc ▸ List.sublist_cons_self frame rest)

/-- The write of `append(b)` on a buffer that holds a byte sequence (R52). -/
theorem write_asmLen {s : State} {bs : List Byte} (b : Byte) (hs : s.frameBuf = Memory.ofBytes bs) :
    s.frameBuf.write s.asmLen b = Memory.ofBytes (bs ++ [b]) := by
  rw [asmLen_eq, hs, ofBytes_length, write_ofBytes_end]

/-- ASM_OPTLEN goes on only with a total of at most MAX_FRAME, so that the body is open: a frame is
longer than its header. -/
theorem bodyOpen_header {hi lo ol : Byte} {n : Nat} (hn : frameTotal [0x55, hi, lo, ol] = some n)
    (hmax : n ≤ maxFrame) : bodyOpen [0x55, hi, lo, ol] = true := by
  refine (bodyOpen_iff _).mpr ⟨n, hn, ?_, hmax⟩
  rw [frameTotal_four] at hn
  have := Option.some.inj hn
  simp only [List.length_cons, List.length_nil]
  omega

/-- A body byte leaves the frame open or completes it (R125). -/
theorem asmShape_or_frameOk_of_append {bs : List Byte} {b : Byte} {n : Nat} (h : AsmShape .readBody bs)
    (hn : frameTotal (bs ++ [b]) = some n) :
    ((bs ++ [b]).length ≠ n → AsmShape .readBody (bs ++ [b]))
      ∧ ((bs ++ [b]).length = n → FrameOk (bs ++ [b])) := by
  obtain ⟨hi, lo, ol, rest, rfl, hopen⟩ := h
  obtain ⟨m, hm, hlt, hmax⟩ := (bodyOpen_iff _).mp hopen
  obtain rfl : m = n := Option.some.inj ((frameTotal_append [b] hm).symm.trans hn)
  constructor
  · intro hne
    rw [List.length_append, List.length_singleton] at hne
    refine ⟨hi, lo, ol, rest ++ [b], rfl, (bodyOpen_iff _).mpr ⟨m, hn, ?_, hmax⟩⟩
    rw [List.length_append, List.length_singleton]
    omega
  · intro heq
    exact ⟨rfl, heq ▸ hn, heq ▸ hmax⟩

/-- ASM_BODY keeps the invariant under either arm of R125 and either way R126 delivers. -/
theorem exec_asmBody_keeps_inv {s t : State} {b : Byte} (h : s.Inv) (hst : s.asmSt = .readBody)
    (ht : exec (.asmBody b) s = .next t) : t.Inv := by
  obtain ⟨bs, hs, hshape, hchan⟩ := (inv_iff s).mp h
  rw [hst] at hshape
  obtain ⟨n, -, hn, hcase⟩ := execAsmBody_eq_next ht
  simp only [write_asmLen b hs, total_ofBytes, ofBytes_length, bytes_ofBytes] at hn hcase
  obtain ⟨hgo, hemit⟩ := asmShape_or_frameOk_of_append hshape hn
  obtain ⟨hne, rfl⟩ | ⟨heq, hroom, rfl⟩ | ⟨heq, -, -, rfl⟩ := hcase
  · exact (inv_iff _).mpr ⟨_, rfl, hgo hne, hchan.frames, hchan.within⟩
  · exact (inv_iff _).mpr ⟨[], rfl, rfl,
      .of_append hchan.frames (hemit heq) rfl ((chanHasRoom_iff s).mp hroom)⟩
  · exact (inv_iff _).mpr ⟨[], rfl, rfl,
      .of_append (fun f hf => hchan.frames f (List.mem_of_mem_tail hf)) (hemit heq) rfl fun _ => hchan.tail_has_room⟩

/-- The operation that `asm_st` selects keeps the invariant. -/
theorem exec_asmOperation_keeps_inv {s t : State} {b : Byte} (h : s.Inv)
    (ht : exec (asmOperation s.asmSt b) s = .next t) : t.Inv := by
  obtain ⟨bs, hs, hshape, hchan⟩ := (inv_iff s).mp h
  have hw := write_asmLen b hs
  cases hst : s.asmSt with
  | readBody => rw [hst] at ht; exact exec_asmBody_keeps_inv h hst ht
  | waitSync =>
    rw [hst] at ht hshape
    obtain rfl := hshape
    obtain ⟨rfl, rfl⟩ | ⟨-, rfl⟩ := execAsmWaitSync_eq_next ht
    · exact (inv_iff _).mpr ⟨[0x55], hw, rfl, hchan.frames, hchan.within⟩
    · exact (inv_iff _).mpr ⟨[], hs, rfl, hchan.frames, hchan.within⟩
  | readLenHi =>
    rw [hst] at ht hshape
    obtain rfl := hshape
    obtain ⟨-, rfl⟩ := appendThen_eq_ok.mp (outcomeOf_eq_next.mp ht)
    exact (inv_iff _).mpr ⟨[0x55, b], hw, ⟨b, rfl⟩, hchan.frames, hchan.within⟩
  | readLenLo =>
    rw [hst] at ht hshape
    obtain ⟨hi, rfl⟩ := hshape
    obtain ⟨-, rfl⟩ := appendThen_eq_ok.mp (outcomeOf_eq_next.mp ht)
    exact (inv_iff _).mpr ⟨[0x55, hi, b], hw, ⟨hi, b, rfl⟩, hchan.frames, hchan.within⟩
  | readOptLen =>
    rw [hst] at ht hshape
    obtain ⟨hi, lo, rfl⟩ := hshape
    obtain ⟨n, -, hn, ⟨hmax, rfl⟩ | ⟨-, rfl⟩⟩ := execAsmOptLen_eq_next ht
    · rw [hw, total_ofBytes] at hn
      exact (inv_iff _).mpr ⟨[0x55, hi, lo, b], hw, ⟨hi, lo, b, [], rfl, bodyOpen_header hn hmax⟩,
        hchan.frames, hchan.within⟩
    · exact (inv_iff _).mpr ⟨[], rfl, rfl, hchan.frames, hchan.within⟩

/-! ### The obligations -/

/-- Settles O21: every kind of step of `step_cases` keeps the invariant. -/
theorem stepKeepsStateInvariant : Obligations.StepKeepsStateInvariant := by
  intro s t h ht
  obtain ⟨u, hu, rfl | ⟨-, rfl⟩ | ⟨-, -, b, ht⟩ | ⟨-, -, ht⟩ | ⟨r, rfl⟩⟩ := step_cases ht
  · exact hu.inv h
  · exact inv_of_idle rfl rfl rfl
  · exact exec_asmOperation_keeps_inv (hu.inv h) ht
  · exact exec_pipeStep_keeps_inv (hu.inv h) ht
  · exact inv_of_sublist (hu.inv h) rfl rfl rfl (List.Sublist.refl _)

/-- Settles O8: each element of the booted state against R37's table. -/
theorem resetStateHoldsResetValues : Obligations.ResetStateHoldsResetValues :=
  ⟨fun _ _ => ⟨rfl, rfl, rfl, rfl, rfl, rfl⟩, rfl⟩

/-- The booted state is idle. -/
theorem boot_inv (cfg : Config) (opened : Bool) : (State.boot cfg opened).Inv := inv_of_idle rfl rfl rfl

/-- Settles O22, by `boot_inv`; the empty buffer is in canonical form. -/
theorem resetStateMeetsInvariant : Obligations.ResetStateMeetsInvariant :=
  ⟨boot_inv, boot_inv defaultConfig true, wf_nil⟩

end Sys2Proof.Machine
end

section
/-!
PROOFS. The statement of spec/10_state.md R34 on the record that PARSE_TELEGRAM produces: its fields' shapes, each from the stage of the parser that reads it.
-/

namespace Sys2Proof.Machine

/-! ### The parser's stages, where they succeed -/

theorem takeByte_eq_ok {bs rest : List Byte} {b : Byte} : takeByte bs = .ok (b, rest) ↔ bs = b :: rest := by
  cases bs <;> simp

/-- The selectors with widths (R78). -/
theorem addressLayout_widths {ac : BitVec 3} {ow dw : Nat} (h : addressLayout ac = .ok (ow, dw)) :
    ac.toNat ≤ 3 ∧ (ow = 3 ∨ ow = 4 ∨ ow = 6) := by
  unfold addressLayout at h
  split_ifs at h with h0 h1 h2 h3 <;> cases h <;> subst ac <;> decide

/-- A destination, where there is one, has 4 bytes (R186). -/
theorem readDestination_length {dw : Nat} {bs rest : List Byte} {dest : Option (List Byte)}
    (h : readDestination dw bs = .ok (dest, rest)) : ∀ d, dest = some d → d.length = 4 := by
  rintro d rfl
  unfold readDestination at h
  split at h
  · obtain ⟨⟨v, rest'⟩, ht, hv⟩ := map_eq_ok.mp h
    obtain ⟨hle, rfl, -⟩ := take_eq_ok.mp ht
    cases hv
    exact List.length_take_of_le hle
  · cases h

/-- The addresses a header byte leads to have the widths of R34. -/
theorem readHeaderAddresses_widths {h : Byte} {bs rest orig : List Byte} {dest : Option (List Byte)}
    (hr : readHeaderAddresses h bs = .ok (orig, dest, rest)) :
    (headerAddressControl h).toNat ≤ 3 ∧ (orig.length = 3 ∨ orig.length = 4 ∨ orig.length = 6)
      ∧ ∀ d, dest = some d → d.length = 4 := by
  obtain ⟨⟨ow, dw⟩, hlayout, hr⟩ := bind_eq_ok.mp hr
  obtain ⟨⟨o, bs'⟩, horig, hr⟩ := bind_eq_ok.mp hr
  obtain ⟨⟨d, bs''⟩, hdest, hr⟩ := bind_eq_ok.mp hr
  cases hr
  obtain ⟨hac, how⟩ := addressLayout_widths hlayout
  obtain ⟨hle, rfl, -⟩ := take_eq_ok.mp horig
  exact ⟨hac, by rwa [List.length_take_of_le hle], readDestination_length hdest⟩

/-- No kind stands for the extended-kind sentinel (R187, R196). -/
theorem kindLayout_ne_sentinel {ks : BitVec 4} {kind : TelegramKind} (h : kindLayout ks = .ok kind) : ks ≠ 15 := by
  rintro rfl
  cases h

/-- The data a header byte leads to has its kind's length, and the header byte holds no sentinel (R79, R188). -/
theorem readHeaderData_shape {h : Byte} {bs rest data : List Byte} {kind : TelegramKind}
    (hr : readHeaderData h bs = .ok (kind, data, rest)) :
    data.length = kind.dataLength ∧ headerKindSel h ≠ 15 := by
  obtain ⟨kind', hkind, hr⟩ := bind_eq_ok.mp hr
  obtain ⟨⟨v, bs'⟩, htake, hr⟩ := map_eq_ok.mp hr
  cases hr
  obtain ⟨hle, rfl, -⟩ := take_eq_ok.mp htake
  exact ⟨List.length_take_of_le hle, kindLayout_ne_sentinel hkind⟩

/-- A header byte whose low nibble is the sentinel selects it (R77). -/
theorem headerKindSel_eq_sentinel {h : Byte} (hn : h &&& 0x0F = 0x0F) : headerKindSel h = 15 := by
  revert h
  decide

/-- Minus the signal strength is the raw byte (R82). -/
theorem neg_signalOfRaw_le (raw : Byte) : (-signalOfRaw raw).toNat ≤ 255 := by
  have := raw.isLt
  rw [signalOfRaw, BitVec.neg_neg]
  simp only [BitVec.truncate_eq_setWidth, BitVec.toNat_setWidth]
  omega

/-! ### The whole parse -/

/-- The shape of R34, field by field. -/
theorem telegram_wf_iff (t : Telegram) :
    t.wf = true ↔ t.addressControl.toNat ≤ 3
      ∧ (t.originatorId.length = 3 ∨ t.originatorId.length = 4 ∨ t.originatorId.length = 6)
      ∧ (∀ d, t.destinationId = some d → d.length = 4)
      ∧ t.data.length = t.telegramKind.dataLength ∧ (-t.signalStrengthDbm).toNat ≤ 255 := by
  unfold Telegram.wf
  cases t.destinationId <;> simp [and_assoc, or_assoc]

/-- A parse that succeeds read the header byte first, then the extensions its bits ask for, the
addresses, the kind with its data, and the signal's raw byte; these are the fields it gives (R180). -/
theorem parseTelegram_eq_ok {cfg : Config} {e : Envelope} {t : Telegram} (hp : parseTelegram cfg e = .ok t) :
    ∃ h tail afterExt afterKind afterIds afterData raw,
      e.payload ++ e.optional = h :: tail
        ∧ readExtension (headerExtFlag h) tail = .ok (t.extHeader, afterExt)
        ∧ readExtension (headerKindSel h == 15) afterExt = .ok (t.extKind, afterKind)
        ∧ readHeaderAddresses h afterKind = .ok (t.originatorId, t.destinationId, afterIds)
        ∧ readHeaderData h afterIds = .ok (t.telegramKind, t.data, afterData)
        ∧ t.addressControl = headerAddressControl h ∧ t.signalStrengthDbm = signalOfRaw raw := by
  obtain ⟨-, -, hp⟩ := bind_eq_ok.mp hp
  obtain ⟨⟨h, tail⟩, hhead, hp⟩ := bind_eq_ok.mp hp
  obtain ⟨⟨extHeader, afterExt⟩, hext, hp⟩ := bind_eq_ok.mp hp
  obtain ⟨⟨extKind, afterKind⟩, hextKind, hp⟩ := bind_eq_ok.mp hp
  obtain ⟨⟨orig, dest, afterIds⟩, hids, hp⟩ := bind_eq_ok.mp hp
  obtain ⟨⟨kind, data, afterData⟩, hdata, hp⟩ := bind_eq_ok.mp hp
  obtain ⟨⟨dataCrc, afterCrc⟩, -, hp⟩ := bind_eq_ok.mp hp
  obtain ⟨-, -, hp⟩ := bind_eq_ok.mp hp
  obtain ⟨⟨count, afterCount⟩, -, hp⟩ := bind_eq_ok.mp hp
  obtain ⟨⟨raw, afterRaw⟩, -, hp⟩ := bind_eq_ok.mp hp
  obtain ⟨-, -, hp⟩ := bind_eq_ok.mp hp
  cases hp
  exact ⟨h, tail, afterExt, afterKind, afterIds, afterData, raw, takeByte_eq_ok.mp hhead, hext, hextKind,
    hids, hdata, rfl, rfl⟩

/-- Settles O35: each field's shape from its stage in `parseTelegram_eq_ok`; since the kind stage
rules the sentinel out, the extension before it read no byte. -/
theorem parsedTelegramHasItsShape : Obligations.ParsedTelegramHasItsShape := by
  intro cfg e t hp
  obtain ⟨h, tail, afterExt, afterKind, afterIds, afterData, raw, hseq, -, hextKind, hids, hdata, hac, hsig⟩ :=
    parseTelegram_eq_ok hp
  obtain ⟨hsel, horig, hdest⟩ := readHeaderAddresses_widths hids
  obtain ⟨hlen, hkind⟩ := readHeaderData_shape hdata
  refine ⟨(telegram_wf_iff t).mpr ⟨hac ▸ hsel, horig, hdest, hlen, hsig ▸ neg_signalOfRaw_le raw⟩, ?_, ?_⟩
  · rw [beq_eq_false_iff_ne.mpr hkind, readExtension_false] at hextKind
    exact (Prod.mk.inj (Except.ok.inj hextKind)).1.symm
  · intro h' tail' hseq' hn
    obtain rfl : h = h' := (List.cons.inj (hseq.symm.trans hseq')).1
    exact hkind (headerKindSel_eq_sentinel hn)

end Sys2Proof.Machine
end

section
/-!
PROOFS. The statements of spec/20_memory.md on the frame buffer: what an assembler operation leaves readable in it (R52) and that every step keeps its canonical form (R50). Both follow from the three things an assembler operation can do to the buffer.
-/

namespace Sys2Proof.Machine

/-! ### The operation of a state of `asm_st` -/

theorem asmOperation_eq_asmWaitSync (st : AsmSt) (b : Byte) :
    asmOperation st b = .asmWaitSync b ↔ st = .waitSync := by
  cases st <;> simp [asmOperation]

theorem asmOperation_eq_asmBody (st : AsmSt) (b : Byte) : asmOperation st b = .asmBody b ↔ st = .readBody := by
  cases st <;> simp [asmOperation]

/-! ### What an assembler operation does to the buffer (R121 to R126) -/

/-- The sync byte starts a frame by an append, so that it too meets the bound of R50. -/
theorem execAsmWaitSync_sync (s : State) :
    execAsmWaitSync 0x55 s = outcomeOf (appendThen 0x55 .readLenHi s) := if_pos rfl

/-- An assembler operation appends its byte and goes on with the frame, discards the byte in front of
a frame, or ends the frame and clears the buffer; only ASM_BODY ends a frame by handing it over. -/
theorem exec_asmOperation_cases {st : AsmSt} {b : Byte} {s t : State}
    (h : exec (asmOperation st b) s = .next t) :
    (∃ next, next ≠ .waitSync ∧ s.asmLen < maxFrame
        ∧ t = { s with frameBuf := s.frameBuf.write s.asmLen b, asmSt := next })
      ∨ (st = .waitSync ∧ b ≠ 0x55 ∧ t = { s with trace := s.trace ++ [.discard b], asmSt := .waitSync })
      ∨ (st ≠ .waitSync ∧ t.asmSt = .waitSync ∧ t.frameBuf = [] ∧ (st ≠ .readBody → t.chan = s.chan)) := by
  cases st with
  | waitSync =>
    obtain ⟨rfl, -⟩ | ⟨hb, rfl⟩ := execAsmWaitSync_eq_next h
    · obtain ⟨hlt, rfl⟩ := appendThen_eq_ok.mp (outcomeOf_eq_next.mp ((execAsmWaitSync_sync s).symm.trans h))
      exact .inl ⟨_, by decide, hlt, rfl⟩
    · exact .inr (.inl ⟨rfl, hb, rfl⟩)
  | readLenHi | readLenLo =>
    obtain ⟨hlt, rfl⟩ := appendThen_eq_ok.mp (outcomeOf_eq_next.mp h)
    exact .inl ⟨_, by decide, hlt, rfl⟩
  | readOptLen =>
    obtain ⟨_, hlt, -, ⟨-, rfl⟩ | ⟨-, rfl⟩⟩ := execAsmOptLen_eq_next h
    · exact .inl ⟨_, by decide, hlt, rfl⟩
    · exact .inr (.inr ⟨by decide, rfl, rfl, fun _ => rfl⟩)
  | readBody =>
    obtain ⟨_, hlt, -, ⟨-, rfl⟩ | ⟨-, -, rfl⟩ | ⟨-, -, -, rfl⟩⟩ := execAsmBody_eq_next h
    · exact .inl ⟨_, by decide, hlt, rfl⟩
    · exact .inr (.inr ⟨by decide, rfl, rfl, fun hne => absurd rfl hne⟩)
    · exact .inr (.inr ⟨by decide, rfl, rfl, fun hne => absurd rfl hne⟩)

/-! ### What an assembler operation leaves unchanged (R52, R60) -/

/-- Settles O19: the untouched fields from `exec_asmOperation_frame`; what is readable, and the channel,
in each case of `exec_asmOperation_cases`. -/
theorem assemblerFrame : Obligations.AssemblerFrame := by
  intro s t i b hi h
  obtain ⟨st, rfl⟩ : ∃ st, i = asmOperation st b := by
    obtain rfl | rfl | rfl | rfl | rfl := hi
    exacts [⟨.waitSync, rfl⟩, ⟨.readLenHi, rfl⟩, ⟨.readLenLo, rfl⟩, ⟨.readOptLen, rfl⟩, ⟨.readBody, rfl⟩]
  simp only [ne_eq, asmOperation_eq_asmWaitSync, asmOperation_eq_asmBody]
  refine ⟨by rw [exec_asmOperation_frame h]; exact ⟨rfl, rfl, rfl, rfl, rfl, rfl⟩, ?_⟩
  obtain ⟨next, hnext, -, rfl⟩ | ⟨hst, hb, rfl⟩ | ⟨hst, hwait, hbuf, hchan⟩ := exec_asmOperation_cases h
  · exact ⟨fun _ => ⟨read_write_same .., fun a ha => read_write_other _ b ha, rfl, rfl⟩,
      fun hwait => absurd hwait hnext, fun _ => rfl⟩
  · exact ⟨fun hgo => absurd rfl hgo, fun _ => .inl ⟨hst, hb, fun _ => rfl⟩, fun _ => rfl⟩
  · exact ⟨fun hgo => absurd hwait hgo, fun _ => .inr ⟨hst, fun a => by rw [hbuf, read_nil]⟩, hchan⟩

/-! ### The canonical form (R50, R52) -/

/-- An assembler operation writes inside the frame buffer, leaves it, or clears it. -/
theorem exec_asmOperation_keeps_wf {st : AsmSt} {b : Byte} {s t : State} (hw : s.frameBuf.wf = true)
    (h : exec (asmOperation st b) s = .next t) : t.frameBuf.wf = true := by
  obtain ⟨_, -, hlt, rfl⟩ | ⟨-, -, rfl⟩ | ⟨-, -, hbuf, -⟩ := exec_asmOperation_cases h
  · exact wf_write hw hlt
  · exact hw
  · rw [hbuf, wf_nil]

/-- Settles O20: of the kinds of step in `step_cases`, a reset clears the buffer and only an
assembler operation writes it. -/
theorem stepKeepsMemoryCanonical : Obligations.StepKeepsMemoryCanonical := by
  intro s t hs h
  obtain ⟨u, hu, hcase⟩ := step_cases h
  have hw : u.frameBuf.wf = true := hu.frameBuf ▸ hs
  obtain rfl | ⟨-, rfl⟩ | ⟨-, -, b, ht⟩ | ⟨-, -, ht⟩ | ⟨r, rfl⟩ := hcase
  · exact hw
  · exact wf_cleared
  · exact exec_asmOperation_keeps_wf hw ht
  · obtain ⟨-, rfl⟩ | ⟨_, _, _, -, -, rfl⟩ := exec_pipeStep_eq_next ht <;> exact hw
  · exact hw

end Sys2Proof.Machine
end

section
/-!
PROOFS. The statements of spec/30_encoding.md that a transaction and the operation it decodes to fix each other (R71, R72, R77, R85). Each reader of an operand is inverted once, as an `↔` with the bytes that the encoder writes; each round trip then goes slot by slot.
-/

namespace Sys2Proof.Machine

/-! ### Operands of plain bytes -/

theorem readSingle_eq_ok {bs : List Byte} {b : Byte} : readSingle bs = .ok b ↔ bs = [b] := by
  match bs with
  | [] | [_] | _ :: _ :: _ => simp [readSingle]

theorem readFirst_eq_ok {bs rest : List Byte} {b : Byte} : readFirst bs = .ok (b, rest) ↔ bs = b :: rest := by
  cases bs <;> simp [readFirst]

theorem splitOff_eq_some {n : Nat} {bs front rest : List Byte} :
    splitOff n bs = some (front, rest) ↔ front.length = n ∧ bs = front ++ rest := by
  unfold splitOff
  constructor
  · intro h
    split_ifs at h with hn
    cases h
    exact ⟨List.length_take_of_le hn, (List.take_append_drop n bs).symm⟩
  · rintro ⟨rfl, rfl⟩
    simp

theorem readOptByte_eq_some {bs rest : List Byte} {o : Option Byte} :
    readOptByte bs = some (o, rest) ↔ bs = optByteBytes o ++ rest := by
  constructor
  · intro h
    unfold readOptByte at h
    split at h
    · cases h
    · split_ifs at h with h0 h1
      · cases h; subst h0; rfl
      · split at h <;> cases h
        subst h1; rfl
  · rintro rfl
    cases o <;> rfl

theorem readOptDestination_eq_some {bs rest : List Byte} {o : Option (List Byte)} :
    readOptDestination bs = some (o, rest)
      ↔ (∀ d, o = some d → d.length = 4) ∧ bs = optDestinationBytes o ++ rest := by
  constructor
  · intro h
    unfold readOptDestination at h
    split at h
    · cases h
    · split_ifs at h with h0 h1
      · cases h; subst h0; exact ⟨nofun, rfl⟩
      · obtain ⟨⟨d, rest'⟩, hs, he⟩ := Option.map_eq_some_iff.mp h
        obtain ⟨hd, rfl⟩ := splitOff_eq_some.mp hs
        cases he; subst h1
        exact ⟨fun _ he => Option.some.inj he ▸ hd, rfl⟩
  · rintro ⟨hd, rfl⟩
    cases o with
    | none => rfl
    | some d =>
      have hs : splitOff 4 (d ++ rest) = some (d, rest) := splitOff_eq_some.mpr ⟨hd d rfl, rfl⟩
      simp [readOptDestination, optDestinationBytes, hs]

theorem readKind_eq_some {b : Byte} {kind : TelegramKind} : readKind b = some kind ↔ b = kindByte kind := by
  constructor
  · intro h
    unfold readKind at h
    split_ifs at h <;> cases h <;> assumption
  · rintro rfl
    cases kind <;> rfl

/-! ### The readers on what the encoder writes -/

theorem splitOff_append {n : Nat} {front : List Byte} (h : front.length = n) (rest : List Byte) :
    splitOff n (front ++ rest) = some (front, rest) := splitOff_eq_some.mpr ⟨h, rfl⟩

@[simp] theorem readOptByte_append (o : Option Byte) (rest : List Byte) :
    readOptByte (optByteBytes o ++ rest) = some (o, rest) := readOptByte_eq_some.mpr rfl

theorem readOptDestination_append {o : Option (List Byte)} (h : ∀ d, o = some d → d.length = 4) (rest : List Byte) :
    readOptDestination (optDestinationBytes o ++ rest) = some (o, rest) :=
  readOptDestination_eq_some.mpr ⟨h, rfl⟩

@[simp] theorem readKind_kindByte (kind : TelegramKind) : readKind (kindByte kind) = some kind :=
  readKind_eq_some.mpr rfl

/-! ### An Envelope as operand (R33) -/

/-- A big-endian pair splits a 16-bit value into its bytes (R12). -/
theorem be16_extract (v : BitVec 16) : be16 (v.extractLsb' 8 8) (v.extractLsb' 0 8) = v := by
  have := v.isLt
  apply BitVec.eq_of_toNat_eq
  simp only [be16_toNat, BitVec.extractLsb'_toNat, Nat.shiftRight_eq_div_pow]
  omega

theorem extract_be16 (hi lo : Byte) :
    (be16 hi lo).extractLsb' 8 8 = hi ∧ (be16 hi lo).extractLsb' 0 8 = lo := by
  have := hi.isLt
  have := lo.isLt
  constructor <;> apply BitVec.eq_of_toNat_eq <;>
    simp only [be16_toNat, BitVec.extractLsb'_toNat, Nat.shiftRight_eq_div_pow] <;> omega

theorem envelope_wf_iff (e : Envelope) :
    e.wf = true ↔ e.payload.length = e.dataLength.toNat ∧ e.optional.length = e.optionalLength.toNat := by
  simp [Envelope.wf]

theorem readEnvelope_eq_some {bs : List Byte} {e : Envelope} :
    readEnvelope bs = some e ↔ e.wf = true ∧ bs = envelopeBytes e := by
  rw [envelope_wf_iff]
  constructor
  · intro h
    unfold readEnvelope at h
    split at h
    · next hi lo ol pt rest =>
      obtain ⟨⟨payload, rest⟩, hpay, hrest⟩ := Option.bind_eq_some_iff.mp h
      obtain ⟨⟨opt, rest⟩, hopt, htrailer⟩ := Option.bind_eq_some_iff.mp hrest
      obtain ⟨hpayLength, rfl⟩ := splitOff_eq_some.mp hpay
      obtain ⟨hoptLength, rfl⟩ := splitOff_eq_some.mp hopt
      dsimp only at htrailer
      split at htrailer <;> cases htrailer
      exact ⟨⟨hpayLength, hoptLength⟩, by simp [envelopeBytes, extract_be16]⟩
    · cases h
  · rintro ⟨⟨hpay, hopt⟩, rfl⟩
    simp [readEnvelope, envelopeBytes, be16_extract, splitOff_append hpay, splitOff_append hopt]

/-! ### A Telegram as operand (R34) -/

/-- The operand's last byte is the raw signal byte (R82). -/
theorem setWidth_neg_signalOfRaw (raw : Byte) : (-signalOfRaw raw).setWidth 8 = raw := by
  simp [signalOfRaw]

theorem signalOfRaw_setWidth_neg {v : BitVec 16} (h : (-v).toNat ≤ 255) : signalOfRaw ((-v).setWidth 8) = v := by
  have hw : ((-v).setWidth 8).setWidth 16 = -v := by
    apply BitVec.eq_of_toNat_eq
    simp only [BitVec.toNat_setWidth]
    omega
  rw [signalOfRaw, BitVec.zeroExtend, hw, BitVec.neg_neg]

/-- A selector of 3 bits in a byte (R77). -/
theorem setWidth_selector {ac : Byte} (h : ac.toNat ≤ 7) : (ac.setWidth 3).setWidth 8 = ac := by
  apply BitVec.eq_of_toNat_eq
  simp only [BitVec.toNat_setWidth]
  omega

/-- Field by field, what is read is what the encoder writes of it. -/
theorem eq_telegramBytes_of_readTelegram {bs : List Byte} {t : Telegram} (h : readTelegram bs = some t) :
    t.wf = true ∧ bs = telegramBytes t := by
  unfold readTelegram at h
  split at h
  · cases h
  next ac afterAc =>
  obtain ⟨⟨ext, afterExt⟩, hext, h1⟩ := Option.bind_eq_some_iff.mp h
  obtain ⟨⟨extKind, afterKind⟩, hkind, h2⟩ := Option.bind_eq_some_iff.mp h1
  obtain rfl := readOptByte_eq_some.mp hext
  obtain rfl := readOptByte_eq_some.mp hkind
  dsimp only at h2
  split at h2
  · cases h2
  next ow afterOw =>
  obtain ⟨⟨orig, afterOrig⟩, horig, h3⟩ := Option.bind_eq_some_iff.mp h2
  obtain ⟨⟨dest, afterDest⟩, hdest, h4⟩ := Option.bind_eq_some_iff.mp h3
  obtain ⟨hlen, rfl⟩ := splitOff_eq_some.mp horig
  obtain ⟨-, rfl⟩ := readOptDestination_eq_some.mp hdest
  dsimp only at h4
  split at h4
  · cases h4
  next ks afterKs =>
  obtain ⟨kind, hks, h5⟩ := Option.bind_eq_some_iff.mp h4
  obtain ⟨⟨data, afterData⟩, hdata, h6⟩ := Option.bind_eq_some_iff.mp h5
  obtain rfl := readKind_eq_some.mp hks
  obtain ⟨-, rfl⟩ := splitOff_eq_some.mp hdata
  dsimp only at h6
  split at h6
  · split_ifs at h6 with hwf
    obtain ⟨hac, hwf⟩ := hwf
    cases h6
    exact ⟨hwf, by
      simp only [telegramBytes, setWidth_selector hac, setWidth_neg_signalOfRaw, hlen, BitVec.ofNat_toNat,
        BitVec.setWidth_eq]⟩
  · cases h6

/-- A well-formed telegram's operand is read back, its widths being those that the readers ask for. -/
theorem readTelegram_telegramBytes {t : Telegram} (hwf : t.wf = true) : readTelegram (telegramBytes t) = some t := by
  obtain ⟨hac, horig, hdest, hdata, hsig⟩ := (telegram_wf_iff t).mp hwf
  have hid : t.originatorId.length = (BitVec.ofNat 8 t.originatorId.length).toNat := by
    rw [BitVec.toNat_ofNat]
    omega
  have hsel : (t.addressControl.setWidth 8).toNat ≤ 7 := by
    rw [BitVec.toNat_setWidth]
    omega
  have hsel3 : (t.addressControl.setWidth 8).setWidth 3 = t.addressControl :=
    BitVec.setWidth_setWidth_of_le _ (by decide)
  simp only [telegramBytes, readTelegram, readOptByte_append, readOptDestination_append hdest,
    splitOff_append hid, splitOff_append hdata, readKind_kindByte, Option.bind_eq_bind, Option.bind_some,
    signalOfRaw_setWidth_neg hsig, hsel3]
  exact if_pos ⟨hsel, hwf⟩

theorem readTelegram_eq_some {bs : List Byte} {t : Telegram} :
    readTelegram bs = some t ↔ t.wf = true ∧ bs = telegramBytes t :=
  ⟨eq_telegramBytes_of_readTelegram, fun ⟨hwf, hbs⟩ => hbs ▸ readTelegram_telegramBytes hwf⟩

/-! ### The rows of a header byte (R77 to R80, R83) -/

theorem matchesRow_iff {mask pattern b : Byte} : matchesRow mask pattern b = true ↔ b &&& mask = pattern :=
  beq_iff_eq

/-- A row that fixes the whole byte excludes every other byte from the row beside it. -/
theorem not_matchesRow_full {pattern b : Byte} : (!matchesRow 0xFF pattern b) = true ↔ b ≠ pattern := by
  rw [Bool.not_eq_true', Bool.eq_false_iff, ne_eq, matchesRow_iff,
    show (0xFF : Byte) = BitVec.allOnes 8 from rfl, BitVec.and_allOnes]

/-- The three top bits are the address selector (R77). -/
theorem and_selector (h : Byte) : h &&& (0xE0 : Byte) = (headerAddressControl h).setWidth 8 <<< 5 := by
  revert h
  decide

/-- The rows of an address selector are told apart by bits 7 to 5 (R78). -/
theorem matchesRow_address (ac : BitVec 3) (h : Byte) :
    matchesRow 0xE0 (ac.setWidth 8 <<< 5) h = true ↔ headerAddressControl h = ac := by
  rw [matchesRow_iff, and_selector]
  generalize headerAddressControl h = sel
  revert sel ac
  decide

/-- The reserved selectors are those with bit 7 (R185). -/
theorem matchesRow_address_reserved (h : Byte) :
    matchesRow 0x80 0x80 h = true
      ↔ headerAddressControl h ≠ 0 ∧ headerAddressControl h ≠ 1 ∧ headerAddressControl h ≠ 2
        ∧ headerAddressControl h ≠ 3 := by
  revert h
  decide

/-- The two rows of the extended header are told apart by bit 4 (R80). -/
theorem matchesRow_ext (flag : Bool) (h : Byte) :
    matchesRow 0x10 (if flag then 0x10 else 0x00) h = true ↔ headerExtFlag h = flag := by
  revert h flag
  decide

/-- The low nibble is the kind selector (R77). -/
theorem and_nibble (h : Byte) : h &&& 0x0F = (headerKindSel h).setWidth 8 := by
  revert h
  decide

/-- The rows of a kind selector are told apart by bits 3 to 0 (R79). -/
theorem matchesRow_kind (ks : BitVec 4) (h : Byte) :
    matchesRow 0x0F (ks.setWidth 8) h = true ↔ headerKindSel h = ks := by
  rw [matchesRow_iff, and_nibble]
  generalize headerKindSel h = sel
  revert sel ks
  decide

/-- The reserved kinds are 3 to 14 (R187). -/
theorem kindReserved_wf_iff (h : Byte) (rest : List Byte) :
    (Instr.kindReserved h rest).wf = true
      ↔ headerKindSel h ≠ 0 ∧ headerKindSel h ≠ 1 ∧ headerKindSel h ≠ 2 ∧ headerKindSel h ≠ 15 := by
  rw [Instr.wf, and_nibble]
  generalize headerKindSel h = sel
  revert sel
  decide

theorem decodeHeaderAddress_wf (h : Byte) (rest : List Byte) : (decodeHeaderAddress h rest).wf = true := by
  unfold decodeHeaderAddress
  split_ifs with h0 h1 h2 h3
  · exact (matchesRow_address 0 h).mpr h0
  · exact (matchesRow_address 1 h).mpr h1
  · exact (matchesRow_address 2 h).mpr h2
  · exact (matchesRow_address 3 h).mpr h3
  · exact (matchesRow_address_reserved h).mpr ⟨h0, h1, h2, h3⟩

theorem decodeHeaderExt_wf (h : Byte) (rest : List Byte) : (decodeHeaderExt h rest).wf = true := by
  unfold decodeHeaderExt
  split_ifs with hflag
  · exact (matchesRow_ext true h).mpr hflag
  · exact (matchesRow_ext false h).mpr (Bool.not_eq_true _ ▸ hflag)

theorem decodeHeaderKind_wf (h : Byte) (rest : List Byte) : (decodeHeaderKind h rest).wf = true := by
  unfold decodeHeaderKind
  split_ifs with h0 h1 h2 h15
  · exact (matchesRow_kind 0 h).mpr h0
  · exact (matchesRow_kind 1 h).mpr h1
  · exact (matchesRow_kind 2 h).mpr h2
  · exact (matchesRow_kind 15 h).mpr h15
  · exact (kindReserved_wf_iff h rest).mpr ⟨h0, h1, h2, h15⟩

theorem encode_decodeHeaderAddress (h : Byte) (rest : List Byte) :
    encode (decodeHeaderAddress h rest) = callTxn .headerAddress (h :: rest) := by
  unfold decodeHeaderAddress
  split_ifs <;> rfl

theorem encode_decodeHeaderExt (h : Byte) (rest : List Byte) :
    encode (decodeHeaderExt h rest) = callTxn .headerExt (h :: rest) := by
  unfold decodeHeaderExt
  split_ifs <;> rfl

theorem encode_decodeHeaderKind (h : Byte) (rest : List Byte) :
    encode (decodeHeaderKind h rest) = callTxn .headerKind (h :: rest) := by
  unfold decodeHeaderKind
  split_ifs <;> rfl

/-! ### From a transaction to its operation and back (R71, R72) -/

theorem decodeOnTelegram_eq_ok_iff {op : Telegram → Instr} {bs : List Byte} {i : Instr} :
    decodeOnTelegram op bs = .ok i ↔ ∃ t, t.wf = true ∧ bs = telegramBytes t ∧ op t = i := by
  simp only [← and_assoc, ← readTelegram_eq_some]
  unfold decodeOnTelegram
  cases readTelegram bs <;> simp

/-- The rocker row of a label (R85). -/
def rockerRow (label : RockerLabel) (b : Byte) : Instr :=
  match label with
  | .bi => .rockerBi b
  | .bo => .rockerBo b
  | .ai => .rockerAi b
  | .ao => .rockerAo b

theorem decodeRocker_eq_ok {label : RockerLabel} {b : Byte} {i : Instr} :
    decodeRocker label b = .ok i ↔ b &&& label.mask = label.mask ∧ rockerRow label b = i := by
  unfold decodeRocker
  split_ifs with hb
  · cases label <;> simp [hb, rockerRow]
  · simp [hb]

theorem wf_rockerRow (label : RockerLabel) (b : Byte) :
    (rockerRow label b).wf = true ↔ b &&& label.mask = label.mask := by
  cases label <;> exact matchesRow_iff

theorem encode_rockerRow (label : RockerLabel) (b : Byte) :
    encode (rockerRow label b) = callTxn (.rockerCode label) [b] := by
  cases label <;> rfl

/-- What decodes in a call slot is well formed, and its encoding puts the operands back. -/
theorem encode_of_decodeCall {c : CallSlot} {text : String} {bs : List Byte} {i : Instr}
    (htext : slotTakesText (.call c) = false → text = "") (h : decodeCall c text bs = .ok i) :
    i.wf = true ∧ encode i = ⟨.call c, text, bs⟩ := by
  cases c with
  | crc8 | parseEnvelope | normalizeId | directoryKey =>
    obtain rfl := htext rfl
    cases h
    exact ⟨rfl, rfl⟩
  | verify =>
    obtain rfl := htext rfl
    obtain ⟨⟨expected, rest⟩, hread, rfl⟩ := map_eq_ok.mp h
    obtain rfl := readFirst_eq_ok.mp hread
    exact ⟨rfl, rfl⟩
  | parseTelegram =>
    obtain rfl := htext rfl
    simp only [decodeCall] at h
    split at h <;> cases h
    next e hread =>
    obtain ⟨hwf, rfl⟩ := readEnvelope_eq_some.mp hread
    exact ⟨hwf, rfl⟩
  | decode =>
    obtain ⟨t, hwf, rfl, rfl⟩ := decodeOnTelegram_eq_ok_iff.mp h
    exact ⟨hwf, rfl⟩
  | profile =>
    simp only [decodeCall, decodeProfile] at h
    split_ifs at h with hpid hpid hpid hpid hpid <;> cases h <;> subst hpid <;> exact ⟨rfl, rfl⟩
  | dispatch =>
    obtain rfl := htext rfl
    obtain ⟨t, hwf, rfl, rfl⟩ := decodeOnTelegram_eq_ok_iff.mp h
    exact ⟨hwf, rfl⟩
  | frameByte0 | frameByte4 | contactCode =>
    obtain rfl := htext rfl
    obtain ⟨b, hread, rfl⟩ := map_eq_ok.mp h
    obtain rfl := readSingle_eq_ok.mp hread
    split_ifs with hb
    · subst hb; exact ⟨rfl, rfl⟩
    · exact ⟨not_matchesRow_full.mpr hb, rfl⟩
  | headerAddress =>
    obtain rfl := htext rfl
    obtain ⟨⟨b, rest⟩, hread, rfl⟩ := map_eq_ok.mp h
    obtain rfl := readFirst_eq_ok.mp hread
    exact ⟨decodeHeaderAddress_wf b rest, encode_decodeHeaderAddress b rest⟩
  | headerExt =>
    obtain rfl := htext rfl
    obtain ⟨⟨b, rest⟩, hread, rfl⟩ := map_eq_ok.mp h
    obtain rfl := readFirst_eq_ok.mp hread
    exact ⟨decodeHeaderExt_wf b rest, encode_decodeHeaderExt b rest⟩
  | headerKind =>
    obtain rfl := htext rfl
    obtain ⟨⟨b, rest⟩, hread, rfl⟩ := map_eq_ok.mp h
    obtain rfl := readFirst_eq_ok.mp hread
    exact ⟨decodeHeaderKind_wf b rest, encode_decodeHeaderKind b rest⟩
  | rockerCode label =>
    obtain rfl := htext rfl
    obtain ⟨b, hread, hrow⟩ := bind_eq_ok.mp h
    obtain rfl := readSingle_eq_ok.mp hread
    obtain ⟨hb, rfl⟩ := decodeRocker_eq_ok.mp hrow
    exact ⟨(wf_rockerRow label b).mpr hb, encode_rockerRow label b⟩

/-- A step of ASM decodes to the operation of a state that `asm_st` holds, on one byte. -/
theorem decodeAsmStep_eq_ok {bs : List Byte} {i : Instr} (h : decodeAsmStep bs = .ok i) :
    ∃ st b, bs = [AsmSt.code st, b] ∧ i = asmOperation st b := by
  unfold decodeAsmStep at h
  split at h
  · next code b =>
    unfold decodeAsm at h
    split_ifs at h with h0 h1 h2 h3 h4 <;> cases h
    · exact ⟨.waitSync, b, by rw [h0]; rfl, rfl⟩
    · exact ⟨.readLenHi, b, by rw [h1]; rfl, rfl⟩
    · exact ⟨.readLenLo, b, by rw [h2]; rfl, rfl⟩
    · exact ⟨.readOptLen, b, by rw [h3]; rfl, rfl⟩
    · exact ⟨.readBody, b, by rw [h4]; rfl, rfl⟩
  · cases h
  · cases h

theorem wf_asmOperation (st : AsmSt) (b : Byte) : (asmOperation st b).wf = true := by
  cases st <;> rfl

theorem encode_asmOperation (st : AsmSt) (b : Byte) : encode (asmOperation st b) = asmTxn st b := by
  cases st <;> rfl

/-- A transaction that decodes has a text operand only where its slot takes one. -/
theorem text_of_decode_eq_ok {slot : Slot} {text : String} {bytes : List Byte} {i : Instr}
    (h : decode ⟨slot, text, bytes⟩ = .ok i) (hno : slotTakesText slot = false) : text = "" := by
  by_contra hne
  rw [decode, if_pos ⟨hne, hno⟩] at h
  cases h

/-- A call whose text operand is in place is decoded by its slot. -/
theorem decode_call {c : CallSlot} {text : String} (htext : slotTakesText (.call c) = false → text = "")
    (bs : List Byte) : decode ⟨.call c, text, bs⟩ = decodeCall c text bs :=
  if_neg fun ⟨hne, hno⟩ => hne (htext hno)

/-- Settles O3, slot by slot: ASM's, PIPE's, and the calls' in `encode_of_decodeCall`. -/
theorem encodeDecodeRoundTrip : Obligations.EncodeDecodeRoundTrip := by
  intro t i h
  obtain ⟨slot, text, bytes⟩ := t
  have htext := text_of_decode_eq_ok h
  cases slot with
  | asmState =>
    obtain rfl := htext rfl
    obtain ⟨st, b, rfl, rfl⟩ := decodeAsmStep_eq_ok (i := i) h
    exact ⟨wf_asmOperation st b, encode_asmOperation st b⟩
  | pipeAgent =>
    obtain rfl := htext rfl
    change (if bytes = [] then _ else _) = _ at h
    split_ifs at h with hbytes
    cases h
    subst hbytes
    exact ⟨rfl, rfl⟩
  | call c => exact encode_of_decodeCall htext (decode_call htext bytes ▸ h)

/-! ### From an operation to its transaction and back -/

theorem decodeOnTelegram_telegramBytes {op : Telegram → Instr} {t : Telegram} (h : t.wf = true) :
    decodeOnTelegram op (telegramBytes t) = .ok (op t) := decodeOnTelegram_eq_ok_iff.mpr ⟨t, h, rfl, rfl⟩

theorem decode_headerAddress (h : Byte) (rest : List Byte) :
    decode (callTxn .headerAddress (h :: rest)) = .ok (decodeHeaderAddress h rest) := rfl

theorem decode_headerExt (h : Byte) (rest : List Byte) :
    decode (callTxn .headerExt (h :: rest)) = .ok (decodeHeaderExt h rest) := rfl

theorem decode_headerKind (h : Byte) (rest : List Byte) :
    decode (callTxn .headerKind (h :: rest)) = .ok (decodeHeaderKind h rest) := rfl

theorem decode_rockerCode {label : RockerLabel} {b : Byte} (h : b &&& label.mask = label.mask) :
    decode (callTxn (.rockerCode label) [b]) = .ok (rockerRow label b) :=
  (decode_call (fun _ => rfl) [b]).trans (decodeRocker_eq_ok.mpr ⟨h, rfl⟩)

/-- Settles O2, by the slot and, in the fields with several rows, by the value that the row's mask
and match leave for the selector. -/
theorem decodeEncodeRoundTrip : Obligations.DecodeEncodeRoundTrip := by
  intro i hwf
  cases i with
  | crc8 | verify | parseEnvelope | normalizeId | directoryKey => rfl
  | asmWaitSync | asmLenHi | asmLenLo | asmOptLen | asmBody | pipeStep => rfl
  | decode1003 | decode0205 | decode0401 | decode0001 | decode0204 => rfl
  | sync | ptRadio | contactOpen => rfl
  | parseTelegram e =>
    rw [encode, callTxn, decode_call fun _ => rfl, decodeCall, readEnvelope_eq_some.mpr ⟨hwf, rfl⟩]
  | decode pid t => exact (decode_call (c := .decode) nofun _).trans (decodeOnTelegram_telegramBytes hwf)
  | dispatch t => exact decodeOnTelegram_telegramBytes hwf
  | syncBad b | ptOther b | contactClosed b =>
    exact (decode_call (fun _ => rfl) [b]).trans (congrArg Except.ok (if_neg (not_matchesRow_full.mp hwf)))
  | ac000 h rest =>
    have hsel := (matchesRow_address 0 h).mp hwf
    simp [encode, decode_headerAddress, decodeHeaderAddress, hsel]
  | ac001 h rest =>
    have hsel := (matchesRow_address 1 h).mp hwf
    simp [encode, decode_headerAddress, decodeHeaderAddress, hsel]
  | ac010 h rest =>
    have hsel := (matchesRow_address 2 h).mp hwf
    simp [encode, decode_headerAddress, decodeHeaderAddress, hsel]
  | ac011 h rest =>
    have hsel := (matchesRow_address 3 h).mp hwf
    simp [encode, decode_headerAddress, decodeHeaderAddress, hsel]
  | acReserved h rest =>
    obtain ⟨h0, h1, h2, h3⟩ := (matchesRow_address_reserved h).mp hwf
    rw [encode, decode_headerAddress, decodeHeaderAddress, if_neg h0, if_neg h1, if_neg h2, if_neg h3]
  | xhAbsent h rest =>
    have hflag := (matchesRow_ext false h).mp hwf
    rw [encode, decode_headerExt, decodeHeaderExt, if_neg (by simp [hflag])]
  | xhPresent h rest =>
    have hflag := (matchesRow_ext true h).mp hwf
    rw [encode, decode_headerExt, decodeHeaderExt, if_pos hflag]
  | kindRps h rest =>
    have hsel := (matchesRow_kind 0 h).mp hwf
    simp [encode, decode_headerKind, decodeHeaderKind, hsel]
  | kindOneByte h rest =>
    have hsel := (matchesRow_kind 1 h).mp hwf
    simp [encode, decode_headerKind, decodeHeaderKind, hsel]
  | kindFourByte h rest =>
    have hsel := (matchesRow_kind 2 h).mp hwf
    simp [encode, decode_headerKind, decodeHeaderKind, hsel]
  | kindReserved h rest =>
    obtain ⟨h0, h1, h2, h15⟩ := (kindReserved_wf_iff h rest).mp hwf
    rw [encode, decode_headerKind, decodeHeaderKind, if_neg h0, if_neg h1, if_neg h2, if_neg h15]
  | kindExt h rest =>
    have hsel := (matchesRow_kind 15 h).mp hwf
    simp [encode, decode_headerKind, decodeHeaderKind, hsel]
  | rockerBi b => exact decode_rockerCode ((wf_rockerRow .bi b).mp hwf)
  | rockerBo b => exact decode_rockerCode ((wf_rockerRow .bo b).mp hwf)
  | rockerAi b => exact decode_rockerCode ((wf_rockerRow .ai b).mp hwf)
  | rockerAo b => exact decode_rockerCode ((wf_rockerRow .ao b).mp hwf)

end Sys2Proof.Machine
end

section
/-!
PROOFS. The statements of spec/30_encoding.md on single fields: the envelope's layout (R73), the frame bytes (R74, R75), the header byte's selectors and the bytes they ask for (R78 to R80), the signal byte (R82). Each row answers the outcome of the shared reader for its field; the parser's stage for a field calls that reader with what the row's selector stands for.
-/

namespace Sys2Proof.Machine

/-- Settles O1: each transaction is the encoding of its row's operation, which is well formed (O2). -/
theorem writtenWordsDecode : Obligations.WrittenWordsDecode := by
  have row := decodeEncodeRoundTrip
  exact ⟨row (.asmOptLen _) rfl, row (.crc8 _) rfl, row (.decode1003 _) rfl, row .sync rfl, row .ptRadio rfl,
    row (.ac010 _ _) rfl, row (.xhPresent _ _) rfl, row (.kindOneByte _ _) rfl, row (.contactClosed _) rfl,
    row (.rockerBo _) rfl, row .pipeStep rfl⟩

/-! ### The signal byte (R82) -/

theorem signalOfRaw_toInt (raw : Byte) : (signalOfRaw raw).toInt = -(raw.toNat : Int) := by
  have hlt := raw.isLt
  have hraw : (raw.setWidth 16).toInt = raw.toNat := by
    rw [BitVec.toInt_setWidth, Int.bmod_eq_of_le] <;> omega
  rw [signalOfRaw, BitVec.zeroExtend, BitVec.toInt_neg, hraw, Int.bmod_eq_of_le] <;> omega

/-- Settles O36, by `signalOfRaw_toInt`. -/
theorem signalStrengthIsNegatedByte : Obligations.SignalStrengthIsNegatedByte := by
  refine ⟨fun raw => ?_, signalOfRaw_toInt 0x2D, signalOfRaw_toInt 0x00⟩
  have hlt := raw.isLt
  rw [signalOfRaw_toInt]
  omega

/-! ### The frame bytes (R74, R75) -/

theorem checkSync_of_ne {b : Byte} (h : b ≠ 0x55) : checkSync b = .error .badSync :=
  ensure_eq_error.mpr ⟨beq_eq_false_iff_ne.mpr h, rfl⟩

theorem checkPacketType_of_ne {b : Byte} (h : b ≠ 10) : checkPacketType b = .error .unsupportedPacketType :=
  ensure_eq_error.mpr ⟨beq_eq_false_iff_ne.mpr h, rfl⟩

/-- Settles O37, by the verdict of the byte's check. -/
theorem frameByteRowsPassOrFail : Obligations.FrameByteRowsPassOrFail := by
  refine fun s => ⟨rfl, rfl, fun b hb => ?_, fun b hb => ?_⟩
  · rw [exec, execSyncBad, checkSync_of_ne hb, answer_eq]
  · rw [exec, execPtOther, checkPacketType_of_ne hb, answer_eq]

/-! ### The envelope's layout (R73) -/

/-- A sequence checked against its own checksum passes (R102, R103). -/
theorem verify_crc8 (cfg : Config) (bs : List Byte) : verify cfg bs (crc8 cfg bs) = true := beq_self_eq_true _

/-- Settles O32: each check of R150 in turn passes on the laid-out bytes, and the split at the two
lengths gives the sections back. -/
theorem envelopeOfLaidOutFrame : Obligations.EnvelopeOfLaidOutFrame := by
  intro cfg e hwf hpt hmax
  obtain ⟨hpay, hopt⟩ := (envelope_wf_iff e).mp hwf
  have hlen : 6 + (e.payload ++ (e.optional ++ [e.trailer])).length = frameLength e.dataLength e.optionalLength := by
    simp only [List.length_append, List.length_singleton, hpay, hopt, frameLength]
    omega
  have hmax' : frameLength e.dataLength e.optionalLength ≤ maxFrame := hmax
  have hsync : checkSync 0x55 = .ok () := rfl
  have htype : checkPacketType e.packetType = .ok () := by rw [hpt]; rfl
  simp only [frameOfEnvelope, List.cons_append, List.nil_append, List.append_assoc, parseEnvelope,
    parseEnvelopeFields, hsync, htype, except_ok_bind, verify_crc8, be16_extract, hlen, ensure_bind, beq_self_eq_true,
    if_true, decide_eq_true hmax', List.splitAt_eq, List.take_left' hpay, List.drop_left' hpay, List.take_left' hopt,
    List.drop_left' hopt, List.headD_cons]

/-! ### The address rows (R78, R185) -/

/-- Settles O38, by the widths each row hands to the address reader. -/
theorem addressRowsReadTheirWidths : Obligations.AddressRowsReadTheirWidths := by
  refine ⟨fun h rest s hlen => ?_, fun h rest s hlen => ?_, fun h rest s hlen => ?_, fun h rest s hlen => ?_,
    fun i h rest s hi => ?_, fun _ _ _ => rfl⟩
  · rw [exec, execAc000, readAddresses_zero, if_pos hlen, answer_eq]
  · rw [exec, execAc001, readAddresses_zero, if_pos hlen, answer_eq]
  · rw [exec, execAc010, readAddresses_four, if_pos hlen, answer_eq]
  · rw [exec, execAc011, readAddresses_zero, if_pos hlen, answer_eq]
  · obtain ⟨rfl, hlen⟩ | ⟨rfl, hlen⟩ | ⟨rfl, hlen⟩ | ⟨rfl, hlen⟩ := hi
    · rw [exec, execAc000, readAddresses_zero, if_neg (by omega), answer_eq]
    · rw [exec, execAc001, readAddresses_zero, if_neg (by omega), answer_eq]
    · rw [exec, execAc010, readAddresses_four, if_neg (by omega), answer_eq]
    · rw [exec, execAc011, readAddresses_zero, if_neg (by omega), answer_eq]

/-! ### The extended-header rows (R80, R183) -/

/-- Settles O39: whether a byte is read is the row's own bit. -/
theorem extendedHeaderRowsReadOneByteOrNone : Obligations.ExtendedHeaderRowsReadOneByteOrNone := by
  intro h x rest s
  refine ⟨?_, ?_, ?_⟩
  · rw [exec, execXhAbsent, readExtension_false, answer_eq]
  · rw [exec, execXhPresent, readExtension_true_cons, answer_eq]
  · rw [exec, execXhPresent, readExtension_true_nil, answer_eq]

/-! ### The kind rows (R79, R187, R196) -/

theorem readData_of_lt {kind : TelegramKind} {dn : Nat} {rest : List Byte} (h : rest.length < dn) :
    readData kind dn rest = .error .telegramTruncated := by
  rw [readData_eq, if_neg (by omega)]

/-- KIND_EXT fails with the address stage's error if that stage fails. -/
theorem exec_kindExt_of_error {h x : Byte} {rest : List Byte} {e : ErrorName} (s : State)
    (haddr : readHeaderAddresses h rest = .error e) :
    exec (.kindExt h (x :: rest)) s = .next { s with lastResult := some (.kindData (.error e)) } := by
  rw [exec, execKindExt, readExtension_true_cons, answer_eq]
  simp only [except_ok_bind, haddr, except_error_bind]

theorem exec_kindExt_of_ok {h x : Byte} {rest : List Byte} {r : List Byte × Option (List Byte) × List Byte}
    (s : State) (haddr : readHeaderAddresses h rest = .ok r) :
    exec (.kindExt h (x :: rest)) s
      = .next { s with lastResult := some (.kindData (.error .unsupportedTelegramKind)) } := by
  rw [exec, execKindExt, readExtension_true_cons, answer_eq]
  simp only [except_ok_bind, haddr]

/-- Settles O40, by each row's number of data bytes, and for KIND_EXT by the stages before the kind. -/
theorem kindRowsReadTheirDataOrFail : Obligations.KindRowsReadTheirDataOrFail := by
  refine ⟨fun h d rest s => ⟨rfl, rfl, rfl⟩, fun h a b c d rest s => rfl, fun i h rest s hi => ?_,
    fun h x rest e s => exec_kindExt_of_error s, fun h x rest r s => exec_kindExt_of_ok s⟩
  obtain ⟨rfl, rfl⟩ | ⟨rfl, rfl⟩ | ⟨rfl, hlen⟩ | ⟨rfl, rfl⟩ := hi
  · rfl
  · rfl
  · rw [exec, execKindFourByte, readData_of_lt hlen, answer_eq]
  · rfl

/-! ### The parser's stages (R183, R185 to R188) -/

theorem exec_decodeHeaderExt (h : Byte) (rest : List Byte) (s : State) :
    exec (decodeHeaderExt h rest) s = answer (.extHeader (readExtension (headerExtFlag h) rest)) s := by
  unfold decodeHeaderExt
  cases headerExtFlag h <;> rfl

theorem exec_decodeHeaderAddress (h : Byte) (rest : List Byte) (s : State) :
    exec (decodeHeaderAddress h rest) s = answer (.addresses (readHeaderAddresses h rest)) s := by
  unfold decodeHeaderAddress readHeaderAddresses addressLayout
  split_ifs <;> rfl

/-- The sentinel is no selector of the kind stage, whose row reads the earlier fields first (R196). -/
theorem exec_decodeHeaderKind {h : Byte} (rest : List Byte) (s : State) (hks : headerKindSel h ≠ 15) :
    exec (decodeHeaderKind h rest) s = answer (.kindData (readHeaderData h rest)) s := by
  unfold decodeHeaderKind readHeaderData kindLayout
  split_ifs <;> rfl

/-- Settles O42: the row and the stage split on the same selector. -/
theorem parserStagesFollowHeaderRows : Obligations.ParserStagesFollowHeaderRows := by
  intro h rest i s
  refine ⟨fun hd => ?_, fun hd => ?_, fun hd hn => ?_⟩
  · obtain rfl := Except.ok.inj ((decode_headerExt h rest).symm.trans hd)
    rw [exec_decodeHeaderExt, answer_eq]
  · obtain rfl := Except.ok.inj ((decode_headerAddress h rest).symm.trans hd)
    rw [exec_decodeHeaderAddress, answer_eq]
  · obtain rfl := Except.ok.inj ((decode_headerKind h rest).symm.trans hd)
    have hks : headerKindSel h ≠ 15 := fun hks => hn (by rw [and_nibble, hks]; rfl)
    rw [exec_decodeHeaderKind rest s hks, answer_eq]

end Sys2Proof.Machine
end

section
/-!
PROOFS. The statements of spec/30_encoding.md R71 on a step: it runs the operation that its turn's transaction decodes to, and only HOST's transactions can fail to decode.
-/

namespace Sys2Proof.Machine

/-! ### What a turn fetches (R71, R120, R240) -/

theorem fetch_call {s : State} {c : CallSlot} {text : String} {bytes : List Byte} {ts : List Turn}
    (ht : s.turns = .call c text bytes :: ts) : fetch s = .run ⟨.call c, text, bytes⟩ { s with turns := ts } := by
  simp only [fetch, ht, fetchTurn]

theorem fetch_asm {s : State} {ts : List Turn} (ht : s.turns = .asm :: ts) :
    fetch s = fetchAsm { s with turns := ts } := by
  simp only [fetch, ht, fetchTurn]

theorem fetch_pipe {s : State} {ts : List Turn} (ht : s.turns = .pipe :: ts) :
    fetch s = fetchPipe { s with turns := ts } := by
  simp only [fetch, ht, fetchTurn]

theorem fetchAsm_of_byte {s : State} {b : Byte} {bs : List Byte} (ho : s.serialOpen = true)
    (hb : s.byteIn = b :: bs) (hh : s.asmHeld = false) :
    fetchAsm s = .run (asmTxn s.asmSt b) { s with byteIn := bs } := by
  have he : s.asmEnabled = true := (asmEnabled_iff s).mpr ⟨ho, by simp [hb], hh⟩
  simp only [fetchAsm, he, if_true, hb]

theorem fetchPipe_of_frame {s : State} (ho : s.serialOpen = true) (hc : s.chan ≠ []) :
    fetchPipe s = .run ⟨.pipeAgent, "", []⟩ s := if_pos ((pipeEnabled_iff s).mpr ⟨ho, hc⟩)

/-- Settles O4, by what each turn fetches and what that decodes to. -/
theorem stepRunsDecodedOperation : Obligations.StepRunsDecodedOperation := by
  intro s
  refine ⟨fun c text bytes ts i ht hd => step_of_run_ok (fetch_call ht) hd,
    fun b bs ts ho ht hb hh => ⟨decode_asmTxn _ b, ?_⟩, fun ts ho ht hc => ⟨decode_pipeAgent, ?_⟩⟩
  · have hh' : ({ s with turns := ts } : State).asmHeld = false := hh
    exact step_of_run_ok ((fetch_asm ht).trans (fetchAsm_of_byte ho hb hh')) (decode_asmTxn s.asmSt b)
  · exact step_of_run_ok ((fetch_pipe ht).trans (fetchPipe_of_frame ho hc)) decode_pipeAgent

/-! ### Refusals (R259) -/

theorem exec_asmOperation_ne_refused (st : AsmSt) (b : Byte) (s : State) (r : Refusal) :
    exec (asmOperation st b) s ≠ .refused r := by
  cases st with
  | waitSync =>
    change execAsmWaitSync b s ≠ _
    unfold execAsmWaitSync
    split_ifs
    · exact outcomeOf_ne_refused _ r
    · exact nofun
  | readLenHi | readLenLo | readOptLen | readBody => exact outcomeOf_ne_refused _ r

theorem exec_pipeStep_ne_refused (s : State) (r : Refusal) : exec .pipeStep s ≠ .refused r := by
  change execPipeStep s ≠ _
  unfold execPipeStep
  split <;> exact nofun

/-- No operation of the table is refused: a call answers, and the agents' operations go on or fault. -/
theorem exec_ne_refused (i : Instr) (s : State) (r : Refusal) : exec i s ≠ .refused r := by
  obtain ⟨c, hc⟩ | ⟨st, b, rfl⟩ | rfl := call_or_asmOperation_or_pipeStep i
  · obtain ⟨result, hr⟩ := exec_eq_answer_of_call hc
    rw [hr, answer_eq]
    exact nofun
  · exact exec_asmOperation_ne_refused st b s r
  · exact exec_pipeStep_ne_refused s r

/-- Settles O25: of what `fetch_cases` lists, only HOST's transaction can fail to decode, and what
decodes is not refused. -/
theorem onlyUndecodableCallsAreRefused : Obligations.OnlyUndecodableCallsAreRefused := by
  refine ⟨fun s r h => ?_, exec_ne_refused⟩
  obtain ⟨u, -, hf | ⟨-, hf⟩ | ⟨-, -, b, hf⟩ | ⟨-, -, hf⟩ | ⟨c, text, bytes, ts, ht, hf⟩⟩ := fetch_cases s
  · rw [step_of_settled hf] at h
    cases h
  · rw [step_of_settled hf] at h
    cases h
  · rw [step_of_run_ok hf (decode_asmTxn s.asmSt b)] at h
    exact absurd h (exec_ne_refused _ _ r)
  · rw [step_of_run_ok hf decode_pipeAgent] at h
    exact absurd h (exec_ne_refused _ _ r)
  · cases hd : decode ⟨.call c, text, bytes⟩ with
    | ok i =>
      rw [step_of_run_ok hf hd] at h
      exact absurd h (exec_ne_refused _ _ r)
    | error e =>
      rw [step_of_run_error hf hd] at h
      exact ⟨c, text, bytes, ts, e, ht, hd, (Host.Outcome.refused.inj h).symm⟩

end Sys2Proof.Machine
end

section
/-!
PROOFS. The statements of spec/40_crc8.md: what CRC8 and VERIFY answer (R101, R102), that the default table holds the remainders of R100's division, and what follows from it: the residue of R105, and that a changed byte changes the checksum. Both come from the table read as a function: it sends 0 to 0 and no two indices to one value.
-/

namespace Sys2Proof.Machine

/-! ### The answers (R101, R102) -/

theorem rom_eq_getD (cfg : Config) (i : Byte) : rom cfg i = cfg.crcTable.toList.getD i.toNat 0x00 := by
  have hi : i.toNat < cfg.crcTable.toList.length := by simpa using i.isLt
  rw [List.getD_eq_getElem _ _ hi, Vector.getElem_toList, rom]

/-- Settles O9: the fold of `crc8`, its table read as a list (`rom_eq_getD`). -/
theorem crc8ReturnsFoldOfTable : Obligations.Crc8ReturnsFoldOfTable := by
  intro bs s
  rw [exec, execCrc8, answer_eq, crc8]
  simp only [rom_eq_getD]

theorem verify_eq_decide (cfg : Config) (bs : List Byte) (e : Byte) : verify cfg bs e = decide (crc8 cfg bs = e) :=
  beq_eq_decide _ _

/-- Settles O10, by `verify_eq_decide` and `verify_crc8`. -/
theorem verifyReturnsComparison : Obligations.VerifyReturnsComparison := by
  intro bs e s
  constructor
  · rw [exec, execVerify, answer_eq, verify_eq_decide]
  · rw [exec, execVerify, answer_eq, verify_crc8]

/-! ### The table of R100 -/

/-- Settles O11: the 256 entries are compared with the division's remainders. -/
theorem crcTableHoldsRemainders : Obligations.CrcTableHoldsRemainders := by
  unfold Obligations.CrcTableHoldsRemainders
  decide +kernel

theorem rom_eq_crcRemainder {cfg : Config} (h : cfg.crcTable = crcTable) (i : Byte) : rom cfg i = crcRemainder i := by
  have hdefault : rom cfg i = rom defaultConfig i := by simp only [rom, h, defaultConfig]
  rw [hdefault, crcTableHoldsRemainders i]

/-- The polynomial 0x07 has bit 0 set, so the bit that a doubling shifts out stands in bit 0 of what it
leaves. -/
theorem crcShift_getLsbD_zero (r : Byte) : (crcShift r).getLsbD 0 = r.getLsbD 7 := by
  unfold crcShift
  split
  · next htop => simpa using htop.symm
  · next htop => simpa using htop

theorem shiftLeft_one_getLsbD_succ (r : Byte) {i : Nat} (hi : i < 7) : (r <<< 1).getLsbD (i + 1) = r.getLsbD i := by
  have hi8 : i + 1 < 8 := by omega
  rw [BitVec.getLsbD_shiftLeft]
  simp [hi8]

/-- A doubling loses nothing: bit 0 of the outcome says whether the polynomial was added, and the other
bits, with it taken off again, are the bits 0 to 6 that were shifted up. -/
theorem crcShift_injective : Function.Injective crcShift := by
  intro a b h
  have htop : a.getLsbD 7 = b.getLsbD 7 := by rw [← crcShift_getLsbD_zero, h, crcShift_getLsbD_zero]
  have hlow : a <<< 1 = b <<< 1 := by
    simp only [crcShift, htop] at h
    split at h
    · exact (BitVec.xor_left_inj _).mp h
    · exact h
  refine BitVec.eq_of_getLsbD_eq fun i hi => ?_
  obtain hi7 | rfl : i < 7 ∨ i = 7 := by omega
  · rw [← shiftLeft_one_getLsbD_succ a hi7, hlow, shiftLeft_one_getLsbD_succ b hi7]
  · exact htop

theorem crcRemainder_injective : Function.Injective crcRemainder :=
  crcShift_injective.iterate 8

/-- The table of R100 is a permutation: no two indices hold one value. -/
theorem rom_injective {cfg : Config} (h : cfg.crcTable = crcTable) : Function.Injective (rom cfg) := by
  intro i j hij
  rw [rom_eq_crcRemainder h, rom_eq_crcRemainder h] at hij
  exact crcRemainder_injective hij

theorem rom_zero {cfg : Config} (h : cfg.crcTable = crcTable) : rom cfg 0x00 = 0x00 := by
  rw [rom_eq_crcRemainder h]
  decide

/-! ### The checksum over parts of a sequence (R101) -/

/-- The accumulator of R101 after the bytes `bs`, from any value of it. -/
def crcFrom (cfg : Config) (c : Byte) (bs : List Byte) : Byte := bs.foldl (fun c b => rom cfg (c ^^^ b)) c

@[simp] theorem crcFrom_nil (cfg : Config) (c : Byte) : crcFrom cfg c [] = c := rfl

@[simp] theorem crcFrom_cons (cfg : Config) (c b : Byte) (bs : List Byte) :
    crcFrom cfg c (b :: bs) = crcFrom cfg (rom cfg (c ^^^ b)) bs := rfl

/-- The accumulator is all that the rest of the sequence sees of the bytes before it. -/
theorem crc8_append (cfg : Config) (before after : List Byte) :
    crc8 cfg (before ++ after) = crcFrom cfg (crc8 cfg before) after := List.foldl_append

/-- Settles O12: the last byte takes the accumulator to `T[c XOR c] = T[0] = 0`. -/
theorem residueOfCheckedSequenceIsZero : Obligations.ResidueOfCheckedSequenceIsZero := by
  intro cfg bs h
  rw [crc8_append, crcFrom_cons, crcFrom_nil, BitVec.xor_self]
  exact rom_zero h

/-- Over a table without repeats, two accumulators that differ still differ after any bytes. -/
theorem crcFrom_injective {cfg : Config} (h : Function.Injective (rom cfg)) (bs : List Byte) :
    Function.Injective fun c => crcFrom cfg c bs := by
  induction bs with
  | nil => exact fun _ _ hcd => hcd
  | cons b bs ih => exact fun c d hcd => (BitVec.xor_left_inj _).mp (h (ih hcd))

/-- Over a table without repeats, the checksum tells two sequences that differ in one byte apart. -/
theorem crc8_substitute_inj {cfg : Config} (h : Function.Injective (rom cfg)) {before after : List Byte} {x y : Byte} :
    crc8 cfg (before ++ x :: after) = crc8 cfg (before ++ y :: after) ↔ x = y := by
  refine ⟨fun hxy => ?_, fun hxy => by rw [hxy]⟩
  rw [crc8_append, crc8_append, crcFrom_cons, crcFrom_cons] at hxy
  exact (BitVec.xor_right_inj _).mp (h (crcFrom_injective h after hxy))

/-- Settles O13: the table is a permutation (`rom_injective`), so the changed byte changes the checksum. -/
theorem oneCorruptedByteFailsVerify : Obligations.OneCorruptedByteFailsVerify := by
  intro cfg before after x y htable hne
  rw [verify_eq_decide, decide_eq_false_iff_not, crc8_substitute_inj (rom_injective htable)]
  exact hne.symm

end Sys2Proof.Machine
end

section
/-!
PROOFS. The statements of spec/41_frame_assembler.md on one turn of the assembler: what each of its operations does with its byte (R121 to R125), how a frame is delivered (R126), and that a turn without an enabled step passes (R120). Each operation has one rule on a buffer that holds a byte sequence.
-/

namespace Sys2Proof.Machine

/-! ### A turn without an enabled step (R120, R240, R257) -/

/-- Settles O6: an agent whose step is not enabled fetches nothing. -/
theorem turnWithoutEnabledStepChangesNothing : Obligations.TurnWithoutEnabledStepChangesNothing := by
  intro s ts
  constructor
  · intro ht hwait
    obtain ⟨-, hf⟩ | ⟨he, -⟩ := fetchAsm_cases { s with turns := ts }
    · exact step_of_settled ((fetch_asm ht).trans hf)
    · obtain ⟨hopen, hbytes, hfree⟩ := (asmEnabled_iff _).mp he
      obtain hempty | hheld | hshut := hwait
      · exact absurd hempty hbytes
      · exact absurd (hheld.symm.trans hfree) (by decide)
      · exact absurd (hshut.symm.trans hopen) (by decide)
  · intro ht hwait
    obtain ⟨-, hf⟩ | ⟨he, -⟩ := fetchPipe_cases { s with turns := ts }
    · exact step_of_settled ((fetch_pipe ht).trans hf)
    · obtain ⟨hopen, hframes⟩ := (pipeEnabled_iff _).mp he
      obtain hempty | hshut := hwait
      · exact absurd hempty hframes
      · exact absurd (hshut.symm.trans hopen) (by decide)

/-! ### The sync byte and the length bytes (R121 to R123) -/

theorem appendThen_ofBytes {s : State} {bs : List Byte} (b : Byte) (st : AsmSt)
    (hs : s.frameBuf = Memory.ofBytes bs) (hlen : bs.length < maxFrame) :
    appendThen b st s = .ok { s with frameBuf := Memory.ofBytes (bs ++ [b]), asmSt := st } := by
  rw [appendThen_eq_ok, asmLen_eq, hs, ofBytes_length, write_ofBytes_end]
  exact ⟨hlen, rfl⟩

theorem execAsmWaitSync_discard {b : Byte} (s : State) (hb : b ≠ 0x55) :
    execAsmWaitSync b s = .next { s with trace := s.trace ++ [.discard b], asmSt := .waitSync } := if_neg hb

/-- Settles O14: the sync byte is appended to the empty buffer, another byte is discarded. -/
theorem waitSyncStartsOrDiscards : Obligations.WaitSyncStartsOrDiscards := by
  refine ⟨fun s hs => ?_, fun s b hb => execAsmWaitSync_discard s hb⟩
  have happend := appendThen_ofBytes (bs := []) 0x55 .readLenHi hs (by decide)
  rw [exec, execAsmWaitSync_sync, happend, outcomeOf_ok]
  rfl

/-- Settles O15: both operations are `appendThen`. -/
theorem lengthBytesAreAppended : Obligations.LengthBytesAreAppended := by
  intro s bs b hs hlen
  constructor
  · rw [exec, execAsmLenHi, appendThen_ofBytes b _ hs hlen, outcomeOf_ok]
  · rw [exec, execAsmLenLo, appendThen_ofBytes b _ hs hlen, outcomeOf_ok]

/-! ### The optional length (R124) -/

theorem readTotal_of_frameTotal {s : State} {bs : List Byte} {n : Nat} (hs : s.frameBuf = Memory.ofBytes bs)
    (hn : frameTotal bs = some n) : s.readTotal = .ok n := by
  rw [readTotal_eq_ok, hs, total_ofBytes, hn]

/-- ASM_OPTLEN reads the total that its byte completes, and keeps or drops the header (R124). -/
theorem execAsmOptLen_ofBytes {s : State} {bs : List Byte} {b : Byte} {n : Nat}
    (hs : s.frameBuf = Memory.ofBytes bs) (hlen : bs.length < maxFrame) (hn : frameTotal (bs ++ [b]) = some n) :
    execAsmOptLen b s = outcomeOf
      (if maxFrame < n then .ok ({ s with frameBuf := Memory.ofBytes (bs ++ [b]) } : State).dropOversize
        else .ok { s with frameBuf := Memory.ofBytes (bs ++ [b]), asmSt := .readBody }) := by
  rw [execAsmOptLen, appendByte_ofBytes b hs hlen, except_ok_bind, readTotal_of_frameTotal rfl hn, except_ok_bind]

/-- Settles O16: the total of the four bytes against MAX_FRAME. -/
theorem optLenAcceptsOrDropsHeader : Obligations.OptLenAcceptsOrDropsHeader := by
  intro s x hi lo b hs
  have hexec := execAsmOptLen_ofBytes hs (by decide : 3 < 65535) (frameTotal_four x hi lo b [])
  refine ⟨fun hle => hexec.trans ?_, fun hlt => hexec.trans ?_⟩
  · rw [if_neg (show ¬ maxFrame < _ from Nat.not_lt.mpr hle)]
    rfl
  · rw [if_pos (show maxFrame < _ from hlt)]
    rfl

/-! ### Delivery (R126) -/

theorem deliver_of_room {s : State} (frame : RawFrame) (hroom : s.chanHasRoom = true) :
    s.deliver frame = .ok { s with chan := s.chan ++ [frame] } := if_pos hroom

theorem deliver_of_dropOldest {s : State} (frame : RawFrame) {oldest : RawFrame} {rest : List RawFrame}
    (hroom : s.chanHasRoom = false) (hpolicy : s.cfg.fifoPolicy = .dropOldest) (hchan : s.chan = oldest :: rest) :
    s.deliver frame = .ok { s with chan := rest ++ [frame], trace := s.trace ++ [.frameDropped oldest] } := by
  simp only [State.deliver, hroom, hpolicy, dropOldest_cons s oldest rest hchan]
  rfl

theorem chanHasRoom_unbounded {s : State} (h : s.cfg.fifoDepth = .unbounded) : s.chanHasRoom = true := by
  simp only [State.chanHasRoom, h, depthOf]

theorem chanHasRoom_bounded {s : State} {n : Nat} (h : s.cfg.fifoDepth = .bounded n) :
    s.chanHasRoom = decide (s.chan.length < n + 1) := by
  simp only [State.chanHasRoom, h, depthOf]

theorem chanFull_bounded {s : State} {n : Nat} (h : s.cfg.fifoDepth = .bounded n) :
    s.chanFull = (s.chan.length == n + 1) := by
  simp only [State.chanFull, h, depthOf]

theorem asmHeld_iff (s : State) :
    s.asmHeld = true ↔ s.cfg.fifoPolicy = .blockProducer ∧ s.asmSt = .readBody
      ∧ s.frameBuf.total = some (s.asmLen + 1) ∧ s.chanFull = true := by
  simp only [State.asmHeld, Bool.and_eq_true, beq_iff_eq, and_assoc]

/-- A channel that is not full holds nothing up (R126). -/
theorem asmHeld_of_not_full {s : State} (h : s.chanFull = false) : s.asmHeld = false := by
  rw [State.asmHeld, h, Bool.and_false]

/-- Settles O18: the arms of `deliver`, and the hold, which a frame less in the channel lifts. -/
theorem deliverFollowsFullPolicy : Obligations.DeliverFollowsFullPolicy := by
  refine ⟨fun s f hd => deliver_of_room f (chanHasRoom_unbounded hd), fun s f n hd hlt => ?_,
    fun s f oldest rest n hd hpolicy hchan hfull => ?_, fun s n ts _ hd hpolicy hst htotal hlen => ⟨fun ht => ?_, ?_⟩⟩
  · exact deliver_of_room f ((chanHasRoom_bounded hd).trans (decide_eq_true hlt))
  · exact deliver_of_dropOldest f ((chanHasRoom_bounded hd).trans (decide_eq_false (Nat.not_lt.mpr hfull))) hpolicy hchan
  · have hheld : s.asmHeld = true :=
      (asmHeld_iff s).mpr ⟨hpolicy, hst, htotal, (chanFull_bounded hd).trans (beq_iff_eq.mpr hlen)⟩
    exact (turnWithoutEnabledStepChangesNothing s ts).1 ht (.inr (.inl hheld))
  · intro t ht
    obtain ⟨hempty, -⟩ | ⟨frame, rest, r, hchan, -, rfl⟩ := exec_pipeStep_eq_next ht
    · rw [hempty] at hlen
      cases hlen
    · rw [hchan, List.length_cons] at hlen
      have hlt : rest.length ≠ n + 1 := by omega
      exact asmHeld_of_not_full ((chanFull_bounded (s := ({ s with chan := rest } : State).emitResult r) hd).trans
        (beq_eq_false_iff_ne.mpr hlt))

/-! ### The body (R125) -/

/-- ASM_BODY reads the announced total, and goes on short of it (R125). -/
theorem execAsmBody_ofBytes {s : State} {bs : List Byte} {b : Byte} {n : Nat}
    (hs : s.frameBuf = Memory.ofBytes bs) (hlen : bs.length < maxFrame) (hn : frameTotal (bs ++ [b]) = some n) :
    execAsmBody b s = outcomeOf
      (if bs.length + 1 = n then ({ s with frameBuf := Memory.ofBytes (bs ++ [b]) } : State).emitFrame
        else .ok { s with frameBuf := Memory.ofBytes (bs ++ [b]), asmSt := .readBody }) := by
  rw [execAsmBody, appendByte_ofBytes b hs hlen, except_ok_bind, readTotal_of_frameTotal rfl hn, except_ok_bind,
    asmLen_eq, ofBytes_length, List.length_append, List.length_singleton]

/-- The byte that completes the frame hands the whole buffer over, wherever it is delivered to (R125). -/
theorem execAsmBody_of_deliver {s t : State} {bs : List Byte} {b : Byte}
    (hs : s.frameBuf = Memory.ofBytes bs) (hlen : bs.length < maxFrame)
    (hn : frameTotal (bs ++ [b]) = some (bs.length + 1))
    (hd : ({ s with frameBuf := Memory.ofBytes (bs ++ [b]) } : State).deliver (bs ++ [b]) = .ok t) :
    execAsmBody b s = .next { t with frameBuf := [], asmSt := .waitSync } := by
  rw [execAsmBody_ofBytes hs hlen hn, if_pos rfl, State.emitFrame, asmBuf_eq, bytes_ofBytes, hd]
  rfl

/-- Settles O17: short of the announced length the byte is appended; at it the frame is delivered. -/
theorem bodyAppendsOrEmitsFrame : Obligations.BodyAppendsOrEmitsFrame := by
  intro s bs b n hs _ hn hmax
  have hn' : frameTotal (bs ++ [b]) = some n := frameTotal_append [b] hn
  refine ⟨fun hlt => ?_, fun heq hroom => ?_, fun oldest rest heq hroom hpolicy hchan => ?_⟩
  · rw [exec, execAsmBody_ofBytes hs (hlt.le.trans hmax) hn', if_neg hlt.ne, outcomeOf_ok]
  · subst heq
    exact execAsmBody_of_deliver hs hmax hn' (deliver_of_room _ hroom)
  · subst heq
    exact execAsmBody_of_deliver hs hmax hn' (deliver_of_dropOldest _ hroom hpolicy hchan)

end Sys2Proof.Machine
end

section
/-!
PROOFS. The statements of spec/41_frame_assembler.md on runs of the assembler: frames fed in groups (R129), garbage and oversize headers (R128, R130). A run of ASM's turns is cut into the bytes it takes; what each byte does comes from the statements on one turn.
-/

namespace Sys2Proof.Machine

/-! ### Bytes taken one after the other (R120) -/

/-- With its step enabled ASM takes the byte `b` from `s` to `t`, whatever bytes and turns wait behind. -/
structure AsmTakes (s : State) (b : Byte) (t : State) : Prop where
  opened : s.serialOpen = true
  free : s.asmHeld = false
  runs : ∀ (bytes : List Byte) (ts : List Turn), exec (asmOperation s.asmSt b) { s with byteIn := bytes, turns := ts }
    = .next { t with byteIn := bytes, turns := ts }

/-- ASM takes the bytes in order from the first state to the last. -/
inductive AsmConsumes : State → List Byte → State → Prop where
  | nil (s : State) : AsmConsumes s [] s
  | cons {s u t : State} {b : Byte} {bs : List Byte} :
      AsmTakes s b u → AsmConsumes u bs t → AsmConsumes s (b :: bs) t

theorem AsmTakes.step {s t : State} {b : Byte} (h : AsmTakes s b t) (bytes : List Byte) (ts : List Turn) :
    step { s with byteIn := b :: bytes, turns := .asm :: ts } = .next { t with byteIn := bytes, turns := ts } := by
  obtain ⟨-, hstep⟩ := (stepRunsDecodedOperation { s with byteIn := b :: bytes, turns := .asm :: ts }).2.1 b bytes ts
    h.opened rfl rfl h.free
  exact hstep.trans (h.runs bytes ts)

/-- One ASM turn for each byte. -/
theorem AsmConsumes.run {s t : State} {bs : List Byte} (h : AsmConsumes s bs t) (rest : List Byte) (ts : List Turn) :
    Host.Core.run Sys2Proof.core bs.length
        ({ s with byteIn := bs ++ rest, turns := List.replicate bs.length .asm ++ ts } : State)
      = .next { t with byteIn := rest, turns := ts } := by
  induction h with
  | nil s => exact run_zero _
  | cons htake _ ih => exact (run_succ _ (htake.step _ _)).trans ih

theorem AsmConsumes.append {s u t : State} {bs cs : List Byte} (h : AsmConsumes s bs u) (h' : AsmConsumes u cs t) :
    AsmConsumes s (bs ++ cs) t := by
  induction h with
  | nil _ => exact h'
  | cons htake _ ih => exact .cons htake (ih h')

theorem AsmConsumes.split {s t : State} {bs cs : List Byte} (h : AsmConsumes s (bs ++ cs) t) :
    ∃ u, AsmConsumes s bs u ∧ AsmConsumes u cs t := by
  induction bs generalizing s with
  | nil => exact ⟨s, .nil s, h⟩
  | cons b bs ih =>
    cases h with
    | cons htake h =>
      obtain ⟨u, hbs, hcs⟩ := ih h
      exact ⟨u, .cons htake hbs, hcs⟩

/-! ### Feeding (R129) -/

/-- Bytes that arrive wait in order (R54). -/
theorem run_arrivals (s : State) (bs : List Byte) (ts : List Turn) :
    Host.Core.run Sys2Proof.core bs.length ({ s with turns := bs.map .byte ++ ts } : State)
      = .next { s with byteIn := s.byteIn ++ bs, turns := ts } := by
  induction bs generalizing s with
  | nil => rw [List.append_nil]; exact run_zero _
  | cons b bs ih =>
    have hrest := ih { s with byteIn := s.byteIn ++ [b] }
    rw [List.append_assoc] at hrest
    exact (run_succ _ (step_byte rfl)).trans hrest

/-- One group arrives, then ASM takes it. -/
theorem AsmConsumes.run_feedGroup {s t : State} {bs : List Byte} (h : AsmConsumes s bs t) (ts : List Turn) :
    Host.Core.run Sys2Proof.core (2 * bs.length) ({ s with byteIn := [], turns := feedGroup bs ++ ts } : State)
      = .next { t with byteIn := [], turns := ts } := by
  have harrive := run_arrivals { s with byteIn := [] } bs (List.replicate bs.length .asm ++ ts)
  have htake := h.run [] ts
  rw [List.append_nil] at htake
  rw [feedGroup, List.append_assoc, Nat.two_mul]
  exact (run_add _ _ harrive).trans htake

/-- Groups are taken one after the other, so that only their concatenation matters. -/
theorem AsmConsumes.run_feedGroups {s t : State} {groups : List (List Byte)} (h : AsmConsumes s groups.flatten t)
    (ts : List Turn) :
    Host.Core.run Sys2Proof.core (2 * groups.flatten.length)
        ({ s with byteIn := [], turns := groups.flatMap feedGroup ++ ts } : State)
      = .next { t with byteIn := [], turns := ts } := by
  induction groups generalizing s with
  | nil =>
    cases h
    exact run_zero _
  | cons g groups ih =>
    obtain ⟨u, hg, hgroups⟩ := AsmConsumes.split h
    rw [List.flatten_cons, List.length_append, Nat.mul_add, List.flatMap_cons, List.append_assoc]
    exact (run_add _ _ (hg.run_feedGroup _)).trans (ih hgroups)

/-! ### Garbage (R128) -/

theorem asmTakes_discard {s : State} {b : Byte} (ho : s.serialOpen = true) (hst : s.asmSt = .waitSync)
    (hb : b ≠ 0x55) : AsmTakes s b { s with trace := s.trace ++ [.discard b] } where
  opened := ho
  free := asmHeld_of_not_body (by rw [hst]; decide)
  runs bytes ts := by
    rw [hst]
    exact execAsmWaitSync_discard _ hb

theorem asmConsumes_garbage {s : State} {bs : List Byte} (ho : s.serialOpen = true) (hst : s.asmSt = .waitSync)
    (hbs : ∀ b ∈ bs, b ≠ 0x55) : AsmConsumes s bs { s with trace := s.trace ++ bs.map .discard } := by
  induction bs generalizing s with
  | nil => rw [List.map_nil, List.append_nil]; exact .nil s
  | cons b bs ih =>
    obtain ⟨hb, hbs⟩ := List.forall_mem_cons.mp hbs
    have hrest := ih (s := { s with trace := s.trace ++ [.discard b] }) ho hst hbs
    rw [List.append_assoc] at hrest
    exact .cons (asmTakes_discard ho hst hb) hrest

/-- Settles O27: each byte of the garbage is discarded (`asmConsumes_garbage`). -/
theorem garbageBeforeSyncIsDiscarded : Obligations.GarbageBeforeSyncIsDiscarded := by
  intro s bs rest ts ho hst hbs hbytes hturns
  have hrun := (asmConsumes_garbage ho hst hbs).run rest ts
  rwa [← hbytes, ← hturns] at hrun

/-! ### The header (R121 to R124) -/

/-- The state with the assembler at `st` and the bytes `bs` in the buffer. -/
def State.collecting (s : State) (st : AsmSt) (bs : List Byte) : State :=
  { s with asmSt := st, frameBuf := Memory.ofBytes bs }

theorem collecting_idle {s : State} (hst : s.asmSt = .waitSync) (hbuf : s.frameBuf = []) :
    s.collecting .waitSync [] = s := by
  rw [State.collecting, ofBytes_nil, ← hst, ← hbuf]

section
variable {s : State} (ho : s.serialOpen = true)
include ho

/-- The sync byte and the two bytes of the data length, 0x55 among them or not. -/
theorem asmConsumes_header (hi lo : Byte) :
    AsmConsumes (s.collecting .waitSync []) [0x55, hi, lo] (s.collecting .readOptLen [0x55, hi, lo]) := by
  have hsync : AsmTakes (s.collecting .waitSync []) 0x55 (s.collecting .readLenHi [0x55]) :=
    ⟨ho, asmHeld_of_not_body nofun, fun _ _ => waitSyncStartsOrDiscards.1 _ rfl⟩
  have hhi : AsmTakes (s.collecting .readLenHi [0x55]) hi (s.collecting .readLenLo [0x55, hi]) :=
    ⟨ho, asmHeld_of_not_body nofun, fun _ _ => (lengthBytesAreAppended _ [0x55] hi rfl (by simp)).1⟩
  have hlo : AsmTakes (s.collecting .readLenLo [0x55, hi]) lo (s.collecting .readOptLen [0x55, hi, lo]) :=
    ⟨ho, asmHeld_of_not_body nofun, fun _ _ => (lengthBytesAreAppended _ [0x55, hi] lo rfl (by simp)).2⟩
  exact .cons hsync (.cons hhi (.cons hlo (.nil _)))

/-- The fourth byte of a header that announces at most MAX_FRAME bytes. -/
theorem asmTakes_optLen {hi lo ol : Byte} (hmax : 6 + (256 * hi.toNat + lo.toNat) + ol.toNat + 1 ≤ 65535) :
    AsmTakes (s.collecting .readOptLen [0x55, hi, lo]) ol (s.collecting .readBody [0x55, hi, lo, ol]) :=
  ⟨ho, asmHeld_of_not_body nofun, fun _ _ => (optLenAcceptsOrDropsHeader _ 0x55 hi lo ol rfl).1 hmax⟩

/-- The fourth byte of an oversize header. -/
theorem asmTakes_oversize {hi lo ol : Byte} (hmax : 65535 < 6 + (256 * hi.toNat + lo.toNat) + ol.toNat + 1) :
    AsmTakes (s.collecting .readOptLen [0x55, hi, lo]) ol
      (({ s with trace := s.trace ++ [.framingError [0x55, hi, lo, ol]] } : State).collecting .waitSync []) :=
  ⟨ho, asmHeld_of_not_body nofun, fun _ _ => (optLenAcceptsOrDropsHeader _ 0x55 hi lo ol rfl).2 hmax⟩

end

/-- Settles O28: the header's bytes one by one; the last drops it. -/
theorem oversizeHeaderIsDiscardedWhole : Obligations.OversizeHeaderIsDiscardedWhole := by
  intro s hi lo ol rest ts ho hst hbuf hmax hbytes hturns
  have htake := (asmConsumes_header ho hi lo).append (.cons (asmTakes_oversize ho hmax) (.nil _))
  rw [collecting_idle hst hbuf, collecting_idle (s := { s with trace := s.trace ++ [_] }) hst hbuf] at htake
  have hrun := htake.run rest ts
  simp only [List.cons_append, List.nil_append, List.length_cons, List.length_nil, Nat.zero_add, Nat.reduceAdd] at hrun
  rwa [← hbytes, ← hturns] at hrun

/-! ### A whole frame (R125, R129) -/

/-- A channel with room is not full (R126). -/
theorem chanFull_of_room {s : State} (h : s.chanHasRoom = true) : s.chanFull = false := by
  have hlt := (chanHasRoom_iff s).mp h
  unfold State.chanFull
  split
  · rfl
  · next d hd => exact beq_eq_false_iff_ne.mpr (hlt d hd).ne

/-- In a body short of its frame, the bytes up to the announced length complete and emit it. -/
theorem asmConsumes_body {s : State} (ho : s.serialOpen = true) (hroom : s.chanHasRoom = true)
    (b : Byte) (rest bs : List Byte) (hlen : 4 ≤ bs.length)
    (hn : frameTotal bs = some (bs.length + (b :: rest).length)) (hmax : bs.length + (b :: rest).length ≤ 65535) :
    AsmConsumes (s.collecting .readBody bs) (b :: rest)
      (({ s with chan := s.chan ++ [bs ++ b :: rest] } : State).collecting .waitSync []) := by
  have hfree : (s.collecting .readBody bs).asmHeld = false := asmHeld_of_not_full (chanFull_of_room hroom)
  induction rest generalizing b bs with
  | nil =>
    have hemit : AsmTakes (s.collecting .readBody bs) b
        (({ s with chan := s.chan ++ [bs ++ [b]] } : State).collecting .waitSync []) :=
      ⟨ho, hfree, fun bytes ts => (bodyAppendsOrEmitsFrame { s.collecting .readBody bs with byteIn := bytes, turns := ts }
        bs b _ rfl hlen hn hmax).2.1 rfl hroom⟩
    exact .cons hemit (.nil _)
  | cons c rest ih =>
    simp only [List.length_cons] at hn hmax ih
    have hgo : AsmTakes (s.collecting .readBody bs) b (s.collecting .readBody (bs ++ [b])) :=
      ⟨ho, hfree, fun _ _ => (bodyAppendsOrEmitsFrame _ bs b _ rfl hlen hn hmax).1 (by omega)⟩
    have hlen' : (bs ++ [b]).length = bs.length + 1 := by simp
    have hrest := ih c (bs ++ [b]) (by omega)
      (by rw [frameTotal_append [b] hn, hlen']; congr 1; omega) (by omega)
      (asmHeld_of_not_full (chanFull_of_room hroom))
    rw [List.append_assoc] at hrest
    exact .cons hgo hrest

/-- A frame begins with a sync byte and its three length bytes (R125). -/
theorem FrameOk.eq_header {f : RawFrame} (h : FrameOk f) :
    ∃ hi lo ol rest, f = 0x55 :: hi :: lo :: ol :: rest := by
  obtain ⟨hsync, htotal, -⟩ := h
  match f, htotal with
  | x :: hi :: lo :: ol :: rest, _ => exact ⟨hi, lo, ol, rest, by simpa using hsync⟩
  | [], htotal | [_], htotal | [_, _], htotal | [_, _, _], htotal => simp [frameTotal] at htotal

/-- From WaitSync with an empty buffer and room in the channel the bytes of a frame put it there. -/
theorem asmConsumes_frame {s : State} {f : RawFrame} (ho : s.serialOpen = true) (hst : s.asmSt = .waitSync)
    (hbuf : s.frameBuf = []) (hroom : s.chanHasRoom = true) (hf : FrameOk f) :
    AsmConsumes s f { s with chan := s.chan ++ [f] } := by
  obtain ⟨hi, lo, ol, rest, rfl⟩ := FrameOk.eq_header hf
  obtain ⟨-, htotal, hmax⟩ := hf
  have hsum := Option.some.inj ((frameTotal_four 0x55 hi lo ol rest).symm.trans htotal)
  have hmax' : 6 + (256 * hi.toNat + lo.toNat) + ol.toNat + 1 ≤ 65535 := hsum.trans_le hmax
  obtain ⟨b, rest, rfl⟩ : ∃ b rest', rest = b :: rest' := by
    cases rest with
    | nil => simp only [List.length_cons, List.length_nil] at hsum; omega
    | cons b rest => exact ⟨b, rest, rfl⟩
  have hbody := asmConsumes_body ho hroom b rest [0x55, hi, lo, ol] (by simp)
    (by rw [frameTotal_four, hsum]; simp only [List.length_cons, List.length_nil]; congr 1; omega)
    (by simp only [List.length_cons, List.length_nil] at hmax' hsum ⊢; omega)
  have hframe := (asmConsumes_header ho hi lo).append (.cons (asmTakes_optLen ho hmax') hbody)
  rwa [collecting_idle hst hbuf, collecting_idle (s := { s with chan := s.chan ++ [_] }) hst hbuf] at hframe

/-- Settles O26: the groups together are the frame's bytes. -/
theorem splitFeedEmitsFrameOnce : Obligations.SplitFeedEmitsFrameOnce := by
  intro s groups ts ho hst hbuf hbytes hroom hf hturns
  have hrun := (asmConsumes_frame ho hst hbuf hroom hf).run_feedGroups ts
  rwa [← hbytes, ← hturns] at hrun

end Sys2Proof.Machine
end

section
/-!
PROOFS. The statement of spec/41_frame_assembler.md R127 on resynchronisation, and that no enabled assembler step faults in a state of the invariant; the number of bytes still to come is bounded by the room left in the frame buffer.
-/

namespace Sys2Proof.Machine

/-! ### No enabled step faults (R252) -/

/-- A channel within its depth that has no room holds FIFO_DEPTH frames (R27, R126). -/
theorem chanFull_of_no_room {s : State} (hwithin : s.chanWithin = true) (hroom : s.chanHasRoom = false) :
    s.chanFull = true := by
  have hle := (chanWithin_iff s).mp hwithin
  have hnot : ¬ ∀ d, depthOf s.cfg.fifoDepth = some d → s.chan.length < d := by
    rw [← chanHasRoom_iff, hroom]
    decide
  push Not at hnot
  obtain ⟨d, hd, hge⟩ := hnot
  simp only [State.chanFull, hd]
  exact beq_iff_eq.mpr (le_antisymm (hle d hd) hge)

/-- In a state of the invariant that R126 does not hold, ASM_BODY has a next state. -/
theorem exec_asmBody_next {s : State} (h : s.Inv) (hst : s.asmSt = .readBody) (hfree : s.asmHeld = false) (b : Byte) :
    ∃ t, exec (.asmBody b) s = .next t := by
  obtain ⟨bs, hs, hshape, hchan⟩ := (inv_iff s).mp h
  rw [hst] at hshape
  obtain ⟨hi, lo, ol, rest, -, hopen⟩ := hshape
  obtain ⟨n, hn, hlt, hmax⟩ := (bodyOpen_iff _).mp hopen
  have hlen : bs.length < maxFrame := hlt.trans_le hmax
  have hn' : frameTotal (bs ++ [b]) = some n := frameTotal_append [b] hn
  by_cases heq : bs.length + 1 = n
  · subst heq
    cases hd : ({ s with frameBuf := Memory.ofBytes (bs ++ [b]) } : State).deliver (bs ++ [b]) with
    | ok t => exact ⟨_, execAsmBody_of_deliver hs hlen hn' hd⟩
    | error f =>
      obtain ⟨hroom, hpolicy, -⟩ := deliver_eq_error.mp hd
      have htotal : s.frameBuf.total = some (s.asmLen + 1) := by rw [asmLen_eq, hs, total_ofBytes, ofBytes_length, hn]
      have hheld := (asmHeld_iff s).mpr ⟨hpolicy, hst, htotal, chanFull_of_no_room hchan.within hroom⟩
      exact absurd (hheld.symm.trans hfree) (by decide)
  · exact ⟨_, by rw [exec, execAsmBody_ofBytes hs hlen hn', if_neg heq, outcomeOf_ok]⟩

/-- In a state of the invariant that R126 does not hold, the operation `asm_st` selects has a next state. -/
theorem exec_asmOperation_next {s : State} (h : s.Inv) (hfree : s.asmHeld = false) (b : Byte) :
    ∃ t, exec (asmOperation s.asmSt b) s = .next t := by
  obtain ⟨bs, hs, hshape, -⟩ := (inv_iff s).mp h
  cases hst : s.asmSt with
  | readBody => exact exec_asmBody_next h hst hfree b
  | waitSync =>
    rw [hst] at hshape
    obtain rfl := hshape
    by_cases hb : b = 0x55
    · subst hb
      exact ⟨_, waitSyncStartsOrDiscards.1 s hs⟩
    · exact ⟨_, waitSyncStartsOrDiscards.2 s b hb⟩
  | readLenHi =>
    rw [hst] at hshape
    obtain rfl := hshape
    exact ⟨_, (lengthBytesAreAppended s _ b hs (by simp)).1⟩
  | readLenLo =>
    rw [hst] at hshape
    obtain ⟨hi, rfl⟩ := hshape
    exact ⟨_, (lengthBytesAreAppended s _ b hs (by simp)).2⟩
  | readOptLen =>
    rw [hst] at hshape
    obtain ⟨hi, lo, rfl⟩ := hshape
    obtain hle | hlt := le_or_gt (6 + (256 * hi.toNat + lo.toNat) + b.toNat + 1) 65535
    · exact ⟨_, (optLenAcceptsOrDropsHeader s _ hi lo b hs).1 hle⟩
    · exact ⟨_, (optLenAcceptsOrDropsHeader s _ hi lo b hs).2 hlt⟩

/-! ### The bytes still to come (R127) -/

/-- The bytes that each state of the assembler has in its buffer at least, and never MAX_FRAME (R25). -/
theorem asmLen_bounds {s : State} (h : s.Inv) :
    s.asmLen < 65535 ∧ (s.asmSt ≠ .waitSync → 1 ≤ s.asmLen) ∧ (s.asmSt = .readBody → 4 ≤ s.asmLen) := by
  obtain ⟨-, ⟨hwait, hhi, hlo, hopt, hbody, -⟩, -⟩ := h
  rw [asmBuf_length] at hwait hhi hlo hopt hbody
  refine ⟨?_, fun hst => Nat.one_le_iff_ne_zero.mpr fun h0 => hst (hwait.mpr h0), fun hst => (hbody.mp hst).1⟩
  cases hst : s.asmSt with
  | waitSync => have := hwait.mp hst; omega
  | readLenHi => have := hhi.mp hst; omega
  | readLenLo => have := hlo.mp hst; omega
  | readOptLen => have := hopt.mp hst; omega
  | readBody =>
    obtain ⟨n, -, hlt, hmax⟩ := (bodyOpen_iff _).mp (hbody.mp hst).2
    rw [asmBuf_length] at hlt
    omega

/-- An assembler operation returns to WaitSync or leaves the buffer one byte longer. -/
theorem exec_asmOperation_progress {s t : State} {b : Byte} (h : s.Inv)
    (ht : exec (asmOperation s.asmSt b) s = .next t) : t.asmSt = .waitSync ∨ t.asmLen = s.asmLen + 1 := by
  obtain ⟨bs, hs, -⟩ := (inv_iff s).mp h
  obtain ⟨next, -, -, rfl⟩ | ⟨-, -, rfl⟩ | ⟨-, hwait, -⟩ := exec_asmOperation_cases ht
  · right
    change (s.frameBuf.write s.asmLen b).length = _
    rw [write_asmLen b hs, asmLen_eq, hs, ofBytes_length, ofBytes_length, List.length_append, List.length_singleton]
  · exact .inl rfl
  · exact .inl hwait

/-- ASM's turn with a byte waiting and no hold, in a state of the invariant. -/
theorem step_asm_progress {s : State} {b : Byte} {bytes : List Byte} {ts : List Turn} (h : s.Inv)
    (ho : s.serialOpen = true) (hfree : s.asmHeld = false) (hturns : s.turns = .asm :: ts)
    (hbytes : s.byteIn = b :: bytes) :
    ∃ t, step s = .next t ∧ t.Inv ∧ (t.asmSt = .waitSync ∨ t.asmLen = s.asmLen + 1)
      ∧ t.byteIn = bytes ∧ t.turns = ts ∧ t.cfg = s.cfg ∧ t.serialOpen = true := by
  have hu : ({ s with turns := ts, byteIn := bytes } : State).Inv := h
  obtain ⟨t, ht⟩ := exec_asmOperation_next hu hfree b
  obtain ⟨-, hstep⟩ := (stepRunsDecodedOperation s).2.1 b bytes ts ho hturns hbytes hfree
  have hlen := exec_asmOperation_progress hu ht
  have hframe := exec_asmOperation_frame ht
  exact ⟨t, hstep.trans ht, exec_asmOperation_keeps_inv hu ht, hlen,
    by rw [hframe], by rw [hframe], by rw [hframe], by rw [hframe]; exact ho⟩

/-- Under DROP_OLDEST, with as many bytes and turns as the frame buffer has room for, ASM reaches WaitSync:
every byte before that takes up some of the room. -/
theorem asm_reaches_waitSync (m : Nat) {s : State} {ts : List Turn} (h : s.Inv) (ho : s.serialOpen = true)
    (hpolicy : s.cfg.fifoPolicy = .dropOldest) (hroom : s.asmSt ≠ .waitSync → 65535 ≤ s.asmLen + m)
    (hbytes : m ≤ s.byteIn.length) (hturns : s.turns = List.replicate m .asm ++ ts) :
    ∃ (k : Nat) (t : State), k ≤ m ∧ Host.Core.run Sys2Proof.core k s = .next t ∧ t.asmSt = .waitSync := by
  induction m generalizing s with
  | zero =>
    refine ⟨0, s, le_rfl, run_zero s, by_contra fun hst => ?_⟩
    obtain ⟨hlt, -⟩ := asmLen_bounds h
    have hge := hroom hst
    omega
  | succ m ih =>
    by_cases hst : s.asmSt = .waitSync
    · exact ⟨0, s, Nat.zero_le _, run_zero s, hst⟩
    · obtain ⟨b, bytes, hbyte⟩ := List.exists_cons_of_length_pos (Nat.zero_lt_of_lt hbytes)
      rw [hbyte] at hbytes
      obtain ⟨t, hstep, hinv, hlen, rfl, ht, hcfg, ho'⟩ :=
        step_asm_progress h ho (asmHeld_of_dropOldest hpolicy) hturns hbyte
      have hroom' : t.asmSt ≠ .waitSync → 65535 ≤ t.asmLen + m := fun hne => by
        have hgrow := hlen.resolve_left hne
        have hge := hroom hst
        omega
      obtain ⟨k, v, hk, hrun, hv⟩ := ih hinv ho' (hcfg ▸ hpolicy) hroom' (Nat.le_of_succ_le_succ hbytes) ht
      exact ⟨k + 1, v, Nat.succ_le_succ hk, (run_succ k hstep).trans hrun, hv⟩

/-- Settles O29: in the body at least 4 bytes stand in the buffer, in a header at least 1. -/
theorem assemblerResynchronises : Obligations.AssemblerResynchronises := by
  intro s n ts h ho hpolicy hn hbytes hturns
  obtain ⟨-, hpos, hbody⟩ := asmLen_bounds h
  refine asm_reaches_waitSync n h ho hpolicy (fun hst => ?_) hbytes hturns
  split at hn
  · next hst' => have := hbody hst'; omega
  · have := hpos hst; omega

end Sys2Proof.Machine
end

section
/-!
PROOFS. A fed frame's way through the assembler and the pipeline to its record (spec/41_frame_assembler.md R125, spec/42_envelope_parser.md R158, spec/45_pipeline.md R240).
-/

namespace Sys2Proof.Machine

/-- The frame laid out by R73 is one as the assembler emits it (R125). -/
theorem frameOk_frameOfEnvelope {cfg : Config} {e : Envelope} (hwf : e.wf = true)
    (hmax : 6 + e.dataLength.toNat + e.optionalLength.toNat + 1 ≤ 65535) : FrameOk (frameOfEnvelope cfg e) := by
  obtain ⟨hpay, hopt⟩ := (envelope_wf_iff e).mp hwf
  have hlen : (frameOfEnvelope cfg e).length = 6 + e.dataLength.toNat + e.optionalLength.toNat + 1 := by
    simp only [frameOfEnvelope, List.length_append, List.length_cons, List.length_nil, hpay, hopt]
  refine ⟨rfl, ?_, hlen.trans_le hmax⟩
  rw [hlen, frameOfEnvelope]
  simp only [List.cons_append, frameTotal_four, ← be16_toNat, be16_extract]

/-- A parsed telegram is reported for its frame, whatever the decoders make of it (R240, R241). -/
theorem pipeTelegram_emits (s : State) (frame : RawFrame) (t : Telegram) :
    ∃ r : Record, s.pipeTelegram frame t = s.emitResult r ∧ r.frame = frame ∧ r.telegram = some t := by
  unfold State.pipeTelegram
  split
  · split <;> exact ⟨_, rfl, rfl, rfl⟩
  · exact ⟨_, rfl, rfl, rfl⟩

/-- An empty channel has room: the depth is positive (R8). -/
theorem chanHasRoom_of_empty {s : State} (h : s.chan = []) : s.chanHasRoom = true :=
  (chanHasRoom_iff s).mpr fun _ hd => by
    rw [h]
    exact depthOf_pos hd

/-- PIPE's turn on a frame whose envelope and telegram parse reports the telegram (R240). -/
theorem step_pipe_parsed {s : State} {frame : RawFrame} {rest : List RawFrame} {e : Envelope} {t : Telegram}
    {ts : List Turn} (ho : s.serialOpen = true) (hturns : s.turns = .pipe :: ts) (hchan : s.chan = frame :: rest)
    (he : parseEnvelope s.cfg frame = .ok e) (ht : parseTelegram s.cfg e = .ok t) :
    ∃ r : Record, r.frame = frame ∧ r.telegram = some t
      ∧ step s = .next { s with chan := rest, turns := ts, resultOut := s.resultOut ++ [r] } := by
  obtain ⟨r, hemit, hframe, htelegram⟩ := pipeTelegram_emits { s with chan := rest, turns := ts } frame t
  obtain ⟨-, hstep⟩ := (stepRunsDecodedOperation s).2.2 ts ho hturns (by rw [hchan]; nofun)
  refine ⟨r, hframe, htelegram, hstep.trans ?_⟩
  simp only [exec, execPipeStep, hchan, State.pipeFrame, he, ht, hemit]
  rfl

/-- Settles O60: the frame is emitted (`asmConsumes_frame`), then PIPE's turn parses it back to the
envelope it was laid out from. -/
theorem fedFrameIsReportedParsed : Obligations.FedFrameIsReportedParsed := by
  intro s e t ts ho hst hbuf hbytes hchan hwf htype hmax ht hturns
  have hfeed := (asmConsumes_frame ho hst hbuf (chanHasRoom_of_empty hchan)
    (frameOk_frameOfEnvelope (cfg := s.cfg) hwf hmax)).run_feedGroup (.pipe :: ts)
  rw [← hbytes, ← hturns] at hfeed
  have hqueued : s.chan ++ [frameOfEnvelope s.cfg e] = [frameOfEnvelope s.cfg e] := by rw [hchan, List.nil_append]
  obtain ⟨r, hframe, htelegram, hpipe⟩ := step_pipe_parsed
    (s := { s with chan := s.chan ++ [frameOfEnvelope s.cfg e], turns := .pipe :: ts }) ho rfl hqueued
    (envelopeOfLaidOutFrame s.cfg e hwf htype hmax) ht
  refine ⟨r, hframe, htelegram, ?_⟩
  rw [run_add _ 1 hfeed, run_succ 0 hpipe, run_zero, hchan]

end Sys2Proof.Machine
end

section
/-!
PROOFS. The statements of spec/42_envelope_parser.md: PARSE_ENVELOPE's checks in their order and the split (R150 to R158), and which of them a frame from the assembler can fail (R159).
-/

namespace Sys2Proof.Machine

/-! ### Frames with and without a whole header (R151) -/

theorem exists_header_of_length {f : RawFrame} (h : 6 ≤ f.length) :
    ∃ sync hi lo ol pt hc body, f = sync :: hi :: lo :: ol :: pt :: hc :: body := by
  match f, h with
  | sync :: hi :: lo :: ol :: pt :: hc :: body, _ => exact ⟨sync, hi, lo, ol, pt, hc, body, rfl⟩
  | [], h | [_], h | [_, _], h | [_, _, _], h | [_, _, _, _], h | [_, _, _, _, _], h => simp at h

theorem parseEnvelope_of_lt (cfg : Config) {f : RawFrame} (h : f.length < 6) :
    parseEnvelope cfg f = .error .tooShort := by
  unfold parseEnvelope
  split
  · simp only [List.length_cons] at h
    omega
  · rfl

/-! ### The checks after the first (R152 to R158) -/

theorem be16_eq_ofNat (hi lo : Byte) : be16 hi lo = BitVec.ofNat 16 (256 * hi.toNat + lo.toNat) := by
  rw [← be16_toNat, BitVec.ofNat_toNat, BitVec.setWidth_eq]

/-- On a frame with a whole header, each check as a test on its bytes in the order of R150, and the
sections as slices of what follows the header. -/
theorem parseEnvelope_header (cfg : Config) (sync hi lo ol pt hc : Byte) (body : List Byte) :
    parseEnvelope cfg (sync :: hi :: lo :: ol :: pt :: hc :: body) =
      if sync ≠ 0x55 then .error .badSync
      else if crc8 cfg [hi, lo, ol, pt] ≠ hc then .error .headerChecksumMismatch
      else if pt ≠ 10 then .error .unsupportedPacketType
      else if 6 + body.length ≠ frameLength (be16 hi lo) ol then .error .lengthMismatch
      else if maxFrame < 6 + body.length then .error .oversizedFrame
      else .ok ⟨be16 hi lo, ol, 10, body.take (be16 hi lo).toNat, (body.drop (be16 hi lo).toNat).take ol.toNat,
        body.getD ((be16 hi lo).toNat + ol.toNat) 0x00⟩ := by
  simp only [parseEnvelope, parseEnvelopeFields, checkSync, checkPacketType, ensure_bind, verify_eq_decide,
    decide_eq_true_eq, beq_iff_eq, List.splitAt_eq, List.drop_drop, List.headD_eq_head?_getD, List.head?_drop,
    List.getD_eq_getElem?_getD, ← Nat.not_lt, ne_eq, ite_not]
  by_cases htype : pt = 10
  · rw [htype]
  · simp only [if_neg htype]

/-- Settles O30: a frame under 6 bytes is too short; on the others `parseEnvelope_header` makes the
checks of R150 in order, and an offset from 6 on in the frame is one in what follows the header. -/
theorem parseEnvelopeChecksInOrder : Obligations.ParseEnvelopeChecksInOrder := by
  intro f s
  rw [exec, execParseEnvelope, answer_eq]
  congr 4
  by_cases hshort : f.length < 6
  · simp only [hshort, if_true, parseEnvelope_of_lt]
  · obtain ⟨sync, hi, lo, ol, pt, hc, body, rfl⟩ := exists_header_of_length (Nat.le_of_not_lt hshort)
    have hlen : (sync :: hi :: lo :: ol :: pt :: hc :: body).length = 6 + body.length := Nat.add_comm _ 6
    have hoff (i : Nat) : (sync :: hi :: lo :: ol :: pt :: hc :: body).drop (6 + i) = body.drop i := by
      rw [← List.drop_drop]; rfl
    have hget (i : Nat) : (sync :: hi :: lo :: ol :: pt :: hc :: body).getD (6 + i) 0x00 = body.getD i 0x00 := by
      rw [Nat.add_comm]; rfl
    dsimp only
    rw [parseEnvelope_header, if_neg hshort]
    simp only [hlen, hoff, hget, Nat.add_assoc 6, be16_toNat, frameLength, maxFrame]
    rw [be16_eq_ofNat]
    rfl

/-! ### Frames from the assembler (R159) -/

/-- A frame from the assembler has a whole header, since the length it announces counts one (R26, R125). -/
theorem FrameOk.eq_whole_header {f : RawFrame} (h : FrameOk f) :
    ∃ hi lo ol pt hc body, f = 0x55 :: hi :: lo :: ol :: pt :: hc :: body
      ∧ 6 + body.length = frameLength (be16 hi lo) ol ∧ 6 + body.length ≤ maxFrame := by
  obtain ⟨hi, lo, ol, rest, rfl⟩ := h.eq_header
  obtain ⟨-, htotal, hmax⟩ := h
  have hlen : frameLength (be16 hi lo) ol = rest.length + 4 := Option.some.inj htotal
  have hlong : 3 ≤ rest.length := by
    rw [frameLength] at hlen
    omega
  match rest, hlong with
  | pt :: hc :: body, _ =>
    exact ⟨hi, lo, ol, pt, hc, body, rfl, by rw [hlen, Nat.add_comm]; rfl, by rwa [Nat.add_comm]⟩

/-- Settles O31: the sync byte and the length pass by the frame's form, so the checks left are the
header checksum's and the packet type's. -/
theorem assembledFrameFailsOnlyTwoWays : Obligations.AssembledFrameFailsOnlyTwoWays := by
  intro cfg f e hf he
  obtain ⟨hi, lo, ol, pt, hc, body, rfl, hlen, hmax⟩ := hf.eq_whole_header
  rw [parseEnvelope_header, if_neg (not_not_intro rfl), if_neg (not_not_intro hlen), if_neg hmax.not_gt] at he
  by_cases hcrc : crc8 cfg [hi, lo, ol, pt] = hc
  · by_cases htype : pt = 10
    · rw [if_neg (not_not_intro hcrc), if_neg (not_not_intro htype)] at he
      cases he
    · rw [if_neg (not_not_intro hcrc), if_pos htype] at he
      exact .inr (Except.error.inj he).symm
  · rw [if_pos hcrc] at he
    exact .inl (Except.error.inj he).symm

end Sys2Proof.Machine
end

section
/-!
PROOFS. The statements of spec/43_telegram_parser.md: PARSE_TELEGRAM's cursor against the field offsets of R81, in the order of the checks (R180), and short telegrams (R181). A cursor at `c` has the bytes `seq.drop c` left; each stage of the parser, run where `c` bytes are there, asks for the bytes up to the next offset and hands on the slice between the two.
-/

namespace Sys2Proof.Machine

/-! ### Offsets in place of the cursor (R180, R194) -/

/-- What a parse answers that reads the first `c` bytes of `seq` before it goes on with `next` (R194). -/
def needing {α : Type} (seq : List Byte) (c : Nat) (next : Except ErrorName α) : Except ErrorName α :=
  if seq.length < c then .error .telegramTruncated else next

theorem except_map_bind {ε α β γ : Type} (x : Except ε α) (g : α → β) (f : β → Except ε γ) :
    (x.map g >>= f) = (x >>= fun a => f (g a)) := by
  cases x <;> rfl

section
variable {α : Type} (seq : List Byte) (c : Nat)

variable {seq c} in
/-- What follows a reading may count on its bytes. -/
theorem needing_congr {next next' : Except ErrorName α} (h : c ≤ seq.length → next = next') :
    needing seq c next = needing seq c next' := by
  unfold needing
  split
  · rfl
  · next hc => exact h (Nat.le_of_not_lt hc)

theorem needing_of_le {next : Except ErrorName α} (h : c ≤ seq.length) : needing seq c next = next :=
  if_neg h.not_gt

/-- Of two readings in a row the longer one decides. -/
theorem needing_needing {d : Nat} (h : c ≤ d) (next : Except ErrorName α) :
    needing seq c (needing seq d next) = needing seq d next := by
  unfold needing
  by_cases hd : seq.length < d
  · simp only [if_pos hd, ite_self]
  · rw [if_neg (by omega : ¬ seq.length < c)]

/-- A check between two reads: what follows it still has the bytes read before it (R15). -/
theorem needing_check (p : Prop) [Decidable p] (e : ErrorName) (next : Except ErrorName α) :
    needing seq c (if p then .error e else next) = needing seq c (if p then .error e else needing seq c next) :=
  needing_congr fun hc => by rw [needing_of_le seq c hc]

/-- `take(1)[0]` (R194). -/
theorem needing_takeByte (f : Byte × List Byte → Except ErrorName α) :
    needing seq c (takeByte (seq.drop c) >>= f) = needing seq (c + 1) (f (seq.getD c 0x00, seq.drop (c + 1))) := by
  rw [← needing_needing seq c (Nat.le_add_right c 1)]
  refine needing_congr fun hc => ?_
  unfold needing
  split
  · rw [List.drop_eq_nil_of_le (by omega), takeByte_nil, except_error_bind]
  · rw [List.drop_eq_getElem_cons (by omega), takeByte_cons, except_ok_bind, List.getD_eq_getElem]

/-- `take(w)` (R194). -/
theorem needing_take (w : Nat) (f : List Byte × List Byte → Except ErrorName α) :
    needing seq c (take w (seq.drop c) >>= f)
      = needing seq (c + w) (f ((seq.drop c).take w, seq.drop (c + w))) := by
  rw [← needing_needing seq c (Nat.le_add_right c w)]
  refine needing_congr fun hc => ?_
  unfold needing
  split
  · rw [take_of_lt (by rw [List.length_drop]; omega), except_error_bind]
  · rw [take_of_le (by rw [List.length_drop]; omega), except_ok_bind, List.drop_drop]

/-- An extension byte, where the header says there is one (R183, R184). -/
theorem needing_readExtension (present : Bool) (f : Option Byte × List Byte → Except ErrorName α) :
    needing seq c (readExtension present (seq.drop c) >>= f)
      = needing seq (c + present.toNat)
          (f (if present then seq[c]? else none, seq.drop (c + present.toNat))) := by
  cases present with
  | false => rfl
  | true =>
    rw [readExtension, if_pos rfl, except_map_bind, needing_takeByte]
    refine needing_congr fun hend => ?_
    rw [if_pos rfl, List.getD_eq_getElem _ _ hend, List.getElem?_eq_getElem hend]
    rfl

end

/-- The header byte, with the cursor at the start. -/
theorem takeByte_bind {α : Type} (seq : List Byte) (f : Byte × List Byte → Except ErrorName α) :
    (takeByte seq >>= f) = needing seq 1 (f (seq.getD 0 0x00, seq.drop 1)) := by
  cases seq <;> rfl

/-! ### The header's selectors as numbers (R77 to R80) -/

theorem shiftRight_selector (h : Byte) : (h >>> 5).toNat = (headerAddressControl h).toNat := by
  revert h
  decide

theorem and_nibble_toNat (h : Byte) : (h &&& 0x0F).toNat = (headerKindSel h).toNat := by
  rw [and_nibble, BitVec.toNat_setWidth_of_le (by decide)]

theorem headerExtFlag_toNat (h : Byte) : (if h &&& 0x10 = 0x10 then 1 else 0) = (headerExtFlag h).toNat := by
  revert h
  decide

theorem headerKindSel_sentinel_toNat (h : Byte) :
    (if (headerKindSel h).toNat = 15 then 1 else 0) = (headerKindSel h == 15).toNat := by
  generalize headerKindSel h = ks
  revert ks
  decide

/-- `OW` (R78). -/
def originatorWidth (ac : BitVec 3) : Nat := if ac.toNat = 0 then 3 else if ac.toNat = 3 then 6 else 4

/-- `DW` (R78). -/
def destinationWidth (ac : BitVec 3) : Nat := if ac.toNat = 2 then 4 else 0

/-- The kind of a selector that has one (R79). -/
def kindOfSelector (ks : BitVec 4) : TelegramKind :=
  if ks.toNat = 0 then .rps else if ks.toNat = 1 then .oneByte else .fourByte

/-- `DN` (R79). -/
def dataWidth (ks : BitVec 4) : Nat := if ks.toNat = 2 then 4 else 1

theorem addressLayout_eq (ac : BitVec 3) :
    addressLayout ac = if 4 ≤ ac.toNat then .error .unsupportedAddressControl
      else .ok (originatorWidth ac, destinationWidth ac) := by
  revert ac
  decide

theorem kindLayout_eq (ks : BitVec 4) :
    kindLayout ks = if 3 ≤ ks.toNat then .error .unsupportedTelegramKind else .ok (kindOfSelector ks) := by
  revert ks
  decide

/-- A selector that has a kind is not the sentinel (R196). -/
theorem beq_sentinel_of_kind {ks : BitVec 4} (h : ¬ 3 ≤ ks.toNat) : (ks == 15) = false := by
  revert ks
  decide

theorem kindOfSelector_dataLength {ks : BitVec 4} (h : ¬ 3 ≤ ks.toNat) :
    (kindOfSelector ks).dataLength = dataWidth ks := by
  revert ks
  decide

/-! ### The stages of the parser (R185 to R189) -/

section
variable {α : Type} (seq : List Byte) (c : Nat)

/-- The destination, where the selector has one (R186). -/
theorem needing_readDestination (ac : BitVec 3) (f : Option (List Byte) × List Byte → Except ErrorName α) :
    needing seq c (readDestination (destinationWidth ac) (seq.drop c) >>= f)
      = needing seq (c + destinationWidth ac)
          (f (if destinationWidth ac = 4 then some ((seq.drop c).take 4) else none,
            seq.drop (c + destinationWidth ac))) := by
  unfold destinationWidth
  by_cases hac : ac.toNat = 2
  · simp only [if_pos hac, if_true, readDestination, except_map_bind, needing_take]
  · rw [if_neg hac]
    rfl

/-- The address stage: the selector's check, then the originator and the destination side by side. -/
theorem needing_readHeaderAddresses (h : Byte)
    (f : List Byte × Option (List Byte) × List Byte → Except ErrorName α) :
    needing seq c (readHeaderAddresses h (seq.drop c) >>= f)
      = needing seq c (if 4 ≤ (headerAddressControl h).toNat then .error .unsupportedAddressControl
        else
          let offDest := c + originatorWidth (headerAddressControl h)
          let offData := offDest + destinationWidth (headerAddressControl h)
          needing seq offData
            (f ((seq.drop c).take (originatorWidth (headerAddressControl h)),
              if destinationWidth (headerAddressControl h) = 4 then some ((seq.drop offDest).take 4) else none,
              seq.drop offData))) := by
  rw [readHeaderAddresses, addressLayout_eq]
  by_cases hac : 4 ≤ (headerAddressControl h).toNat
  · simp only [if_pos hac, except_error_bind]
  · simp only [if_neg hac, except_ok_bind, readAddresses, bind_assoc, needing_take, needing_readDestination]
    rw [needing_needing _ _ (by omega)]

/-- The kind stage: the selector's check, then the data. -/
theorem needing_readHeaderData (h : Byte) (f : TelegramKind × List Byte × List Byte → Except ErrorName α) :
    needing seq c (readHeaderData h (seq.drop c) >>= f)
      = needing seq c (if 3 ≤ (headerKindSel h).toNat then .error .unsupportedTelegramKind
        else
          let offCrc := c + dataWidth (headerKindSel h)
          needing seq offCrc
            (f (kindOfSelector (headerKindSel h), (seq.drop c).take (dataWidth (headerKindSel h)),
              seq.drop offCrc))) := by
  rw [readHeaderData, kindLayout_eq]
  by_cases hks : 3 ≤ (headerKindSel h).toNat
  · simp only [if_pos hks, except_error_bind]
  · simp only [if_neg hks, except_ok_bind, kindOfSelector_dataLength hks, readData, except_map_bind, needing_take]
    rw [needing_needing _ _ (by omega)]

end

/-- What the data checksum covers, by the offset where the data ends (R189). -/
theorem dataSpan_drop (span : DataCrcSpan) (seq data : List Byte) (c : Nat) :
    dataSpan span seq data (seq.drop c) = if span = .dataField then data else seq.take c := by
  cases span with
  | dataField => rfl
  | telegramPrefix =>
    rw [dataSpan, List.length_drop, if_neg nofun, Nat.sub_sub_eq_min, Nat.min_comm, ← List.take_eq_take_min]

theorem ensure_verify_bind {α : Type} (cfg : Config) (bs : List Byte) (b : Byte) (e : ErrorName)
    (f : Unit → Except ErrorName α) :
    (ensure (verify cfg bs b) e >>= f) = if crc8 cfg bs ≠ b then .error e else f () := by
  simp only [ensure_bind, verify_eq_decide, decide_eq_true_eq, ne_eq, ite_not]

/-- The data checksum's check, between the reads before it and those after it (R189). -/
theorem needing_verify {α : Type} (seq : List Byte) (c : Nat) (cfg : Config) (bs : List Byte) (b : Byte)
    (e : ErrorName) (f : Unit → Except ErrorName α) :
    needing seq c (ensure (verify cfg bs b) e >>= f)
      = needing seq c (if crc8 cfg bs ≠ b then .error e else needing seq c (f ())) := by
  rw [ensure_verify_bind, needing_check]

theorem signalOfRaw_eq_ofInt (raw : Byte) : signalOfRaw raw = BitVec.ofInt 16 (-(raw.toNat : Int)) := by
  rw [← signalOfRaw_toInt, BitVec.ofInt_toInt]

/-! ### The whole parse (R180, R181) -/

theorem parseTelegram_of_short (cfg : Config) {e : Envelope} (h : e.dataLength.toNat ≤ 6) :
    parseTelegram cfg e = .error .unsupportedShortTelegram := by
  rw [parseTelegram, ensure_bind, decide_eq_false h.not_gt]
  rfl

/-- The cursor parser is the description by offsets: the stages in turn name the offset each read ends
at, and a header whose kind passes its check read no extended kind (R196). -/
theorem parseTelegram_eq_telegramByOffsets (cfg : Config) (e : Envelope) :
    parseTelegram cfg e = telegramByOffsets cfg e := by
  by_cases hshort : e.dataLength.toNat ≤ 6
  · rw [parseTelegram_of_short cfg hshort]
    exact (if_pos hshort).symm
  · rw [parseTelegram, ensure_bind, decide_eq_true (Nat.lt_of_not_le hshort), telegramByOffsets]
    generalize e.payload ++ e.optional = seq
    simp only [if_neg hshort, if_true, shiftRight_selector, and_nibble_toNat, headerExtFlag_toNat,
      headerKindSel_sentinel_toNat]
    rw [takeByte_bind, needing_readExtension, needing_readExtension, needing_readHeaderAddresses]
    generalize seq.getD 0 0x00 = h
    by_cases hks : 3 ≤ (headerKindSel h).toNat
    · simp only [needing_readHeaderData, if_pos hks]
      rfl
    · simp only [needing_readHeaderData, if_neg hks, needing_takeByte, beq_sentinel_of_kind hks]
      rw [needing_verify]
      simp only [needing_takeByte, ensure_verify_bind, dataSpan_drop, signalOfRaw_eq_ofInt, BitVec.ofNat_toNat,
        BitVec.setWidth_eq, Bool.toNat_eq_one]
      rfl

/-- Settles O33, by `parseTelegram_eq_telegramByOffsets`. -/
theorem parseTelegramMatchesFieldOffsets : Obligations.ParseTelegramMatchesFieldOffsets := by
  intro e s
  rw [exec, execParseTelegram, answer_eq, parseTelegram_eq_telegramByOffsets]

/-- Settles O34: the length is the first check of the parse. -/
theorem shortTelegramIsRejected : Obligations.ShortTelegramIsRejected := by
  intro e s h
  rw [exec, execParseTelegram, answer_eq, parseTelegram_of_short s.cfg h]

end Sys2Proof.Machine
end

section
/-!
PROOFS. The statements of spec/44_profile_decoders.md: what each profile's decoder answers and the range of its readings (R221 to R226), the selection by profile id (R220), and the ids, their directory keys and the lookup (R227 to R229).
-/

namespace Sys2Proof.Machine

/-! ### Data of at least three bytes (R226) -/

theorem exists_three_bytes {d : List Byte} (h : 3 ≤ d.length) : ∃ d0 d1 d2 ds, d = d0 :: d1 :: d2 :: ds := by
  match d, h with
  | d0 :: d1 :: d2 :: ds, _ => exact ⟨d0, d1, d2, ds, rfl⟩

/-- The three temperature decoders need data byte 2 (R226). -/
theorem temperatureDecoders_of_lt {d : List Byte} (h : d.length < 3) :
    decode1003 d = .error .missingDataByte ∧ decode0205 d = .error .missingDataByte
      ∧ decode0401 d = .error .missingDataByte := by
  match d, h with
  | [], _ | [_], _ | [_, _], _ => exact ⟨rfl, rfl, rfl⟩

/-- Settles O43: the formulas on three bytes, `temperatureDecoders_of_lt` on fewer. -/
theorem temperatureDecodersFollowFormulas : Obligations.TemperatureDecodersFollowFormulas := by
  refine ⟨fun d0 d1 d2 ds s => ⟨?_, ?_, ?_⟩, fun i d s hd hi => ?_⟩
  · rw [exec, execDecode1003, answer_eq, decode1003, fallingTemperature]
  · rw [exec, execDecode0205, answer_eq, decode0205, fallingTemperature]
  · rw [exec, execDecode0401, answer_eq, decode0401]
  · obtain ⟨h1003, h0205, h0401⟩ := temperatureDecoders_of_lt hd
    obtain rfl | rfl | rfl := hi
    · rw [exec, execDecode1003, answer_eq, h1003]
    · rw [exec, execDecode0205, answer_eq, h0205]
    · rw [exec, execDecode0401, answer_eq, h0401]

/-! ### The range of the readings (R221 to R223) -/

theorem byte_cast_le (b : Byte) : (b.toNat : Rat) ≤ 255 := by
  exact_mod_cast Nat.le_of_lt_succ b.isLt

theorem fallingTemperature_range (b : Byte) : 0 ≤ fallingTemperature b ∧ fallingTemperature b ≤ 40 := by
  have hlow : (0 : Rat) ≤ b.toNat := Nat.cast_nonneg _
  have hhigh := byte_cast_le b
  unfold fallingTemperature
  constructor <;> linarith

/-- The rising readings of R223 pass their scale's end, for a byte above 250 (I16). -/
theorem risingReading_range (b : Byte) {scale : Rat} (h : 0 ≤ scale) :
    0 ≤ (b.toNat : Rat) / 250 * scale ∧ (b.toNat : Rat) / 250 * scale ≤ 255 / 250 * scale :=
  ⟨by positivity, by gcongr; exact byte_cast_le b⟩

/-- Settles O45: a reading comes from a whole data sequence, and is its formula's value at some byte. -/
theorem readingsStayInRange : Obligations.ReadingsStayInRange := by
  refine ⟨fun d t p h => ?_, fun d t h => ?_, fun d t r h => ?_⟩
  all_goals
    obtain hd | hd := Nat.lt_or_ge d.length 3
    · simp [temperatureDecoders_of_lt hd] at h
    obtain ⟨d0, d1, d2, ds, rfl⟩ := exists_three_bytes hd
    cases h
  · exact fallingTemperature_range d2
  · exact fallingTemperature_range d2
  · obtain ⟨htlow, hthigh⟩ := risingReading_range d2 (scale := 40) (by norm_num)
    obtain ⟨hrlow, hrhigh⟩ := risingReading_range d1 (scale := 100) (by norm_num)
    exact ⟨htlow, by linarith, hrlow, by linarith⟩

/-! ### Contact and rocker (R224, R225) -/

/-- Every rocker row is the test of its label. -/
theorem exec_rockerRow (label : RockerLabel) (b : Byte) (s : State) :
    exec (rockerRow label b) s = answer (.rocker (rockerTest label b)) s := by
  cases label <;> rfl

theorem exec_rockerRow_of_mask {label : RockerLabel} {b : Byte} (s : State) (h : b &&& label.mask = label.mask) :
    exec (rockerRow label b) s = .next { s with lastResult := some (.rocker [label]) } := by
  rw [exec_rockerRow, answer_eq, rockerTest, if_pos h]

/-- Settles O41: the contact rows compare the byte, the rocker rows are `exec_rockerRow_of_mask`. -/
theorem codeRowsGiveContactAndLabels : Obligations.CodeRowsGiveContactAndLabels := by
  refine fun b s => ⟨?_, fun hb => ?_, exec_rockerRow_of_mask (label := .bi) s,
    exec_rockerRow_of_mask (label := .bo) s, exec_rockerRow_of_mask (label := .ai) s,
    exec_rockerRow_of_mask (label := .ao) s⟩
  · rw [exec, execContactOpen, answer_eq, contactOf, if_pos rfl]
  · rw [exec, execContactClosed, answer_eq, contactOf, if_neg hb]

theorem rockerTest_eq_toList (label : RockerLabel) (b : Byte) :
    rockerTest label b = (if b &&& label.mask = label.mask then some label else none).toList := by
  unfold rockerTest
  split <;> rfl

/-- Settles O44: the four tests joined are the filter over the labels and their masks. -/
theorem contactAndRockerDecodersReadFirstByte : Obligations.ContactAndRockerDecodersReadFirstByte := by
  refine ⟨fun d0 ds s => ⟨?_, ?_⟩, fun s => ⟨?_, ?_⟩⟩
  · rw [exec, execDecode0001, answer_eq, decode0001, contactOf]
  · rw [exec, execDecode0204, answer_eq, decode0204]
    simp only [rockerTest_eq_toList, List.filterMap_eq_flatMap_toList, List.flatMap_cons, List.flatMap_nil,
      List.append_nil, List.append_assoc]
    rfl
  · rw [exec, execDecode0001, answer_eq, decode0001]
  · rw [exec, execDecode0204, answer_eq, decode0204]

/-! ### Selection by profile id (R220) -/

theorem decodeReading_of_unsupported {pid : String} (t : Telegram)
    (h : pid ∉ ["10-03", "02-05", "04-01", "00-01", "02-04"]) : decodeReading pid t = .error .unsupportedModel := by
  simp only [List.mem_cons, List.not_mem_nil, or_false, not_or] at h
  obtain ⟨h1003, h0205, h0401, h0001, h0204⟩ := h
  rw [decodeReading, if_neg h1003, if_neg h0205, if_neg h0401, if_neg h0001, if_neg h0204]

/-- Settles O46: the five ids are distinct, and `decodeReading_of_unsupported` has the others. -/
theorem decodeRunsTheProfilesDecoder : Obligations.DecodeRunsTheProfilesDecoder := by
  intro t s
  simp only [exec, execDecode, answer_eq]
  refine ⟨?_, ?_, ?_, ?_, ?_, fun pid h => by rw [decodeReading_of_unsupported t h]⟩
  all_goals simp [decodeReading]

/-! ### Normalised ids (R227) -/

theorem normalise_eq (ident : List Byte) :
    normalise ident = if ident.length = 6 ∧ ident.take 2 = [0x00, 0x00] then ident.drop 2 else ident := by
  match ident with
  | [] | [_] => rfl
  | _ :: _ :: _ => simp [normalise]

/-- Settles O47, by `normalise_eq`. -/
theorem normalizeIdStripsZeroPair : Obligations.NormalizeIdStripsZeroPair := by
  refine ⟨fun a b c d s => ?_, fun ident s h => ?_⟩
  · rw [exec, execNormalizeId, answer_eq, normalise_eq, if_pos ⟨rfl, rfl⟩]
    rfl
  · rw [exec, execNormalizeId, answer_eq, normalise_eq, if_neg h]

/-! ### Directory keys (R228) -/

/-- The sixteen digits in order. -/
theorem hexDigits_getElem? (n : BitVec 4) : "0123456789abcdef".toList[n.toNat]? = some (hexDigit n) := by
  revert n
  decide

theorem hexDigit_injective : Function.Injective hexDigit := by
  intro m n h
  have hm : m.toNat < "0123456789abcdef".toList.length := m.isLt
  refine BitVec.eq_of_toNat_eq ((List.getElem?_inj hm (by decide)).mp ?_)
  rw [hexDigits_getElem?, hexDigits_getElem?, h]

theorem highNibble_toNat (b : Byte) : (b.extractLsb' 4 4).toNat = b.toNat / 16 := by
  have := b.isLt
  simp only [BitVec.extractLsb'_toNat, Nat.shiftRight_eq_div_pow]
  omega

theorem lowNibble_toNat (b : Byte) : (b.extractLsb' 0 4).toNat = b.toNat % 16 := by
  simp

theorem hex2_injective : Function.Injective hex2 := by
  intro a b h
  obtain ⟨hhigh, hlow⟩ : hexDigit (a.extractLsb' 4 4) = hexDigit (b.extractLsb' 4 4)
      ∧ hexDigit (a.extractLsb' 0 4) = hexDigit (b.extractLsb' 0 4) := by simpa [hex2] using h
  have hdiv := congrArg BitVec.toNat (hexDigit_injective hhigh)
  have hmod := congrArg BitVec.toNat (hexDigit_injective hlow)
  rw [highNibble_toNat, highNibble_toNat] at hdiv
  rw [lowNibble_toNat, lowNibble_toNat] at hmod
  exact BitVec.eq_of_toNat_eq (by omega)

theorem flatMap_hex2_injective : Function.Injective fun ident : List Byte => ident.flatMap hex2 := by
  intro a
  induction a with
  | nil =>
    intro b h
    cases b with
    | nil => rfl
    | cons y b => cases h
  | cons x a ih =>
    intro b h
    cases b with
    | nil => cases h
    | cons y b =>
      obtain ⟨hxy, hab⟩ := List.append_inj h rfl
      rw [hex2_injective hxy, ih hab]

/-- Settles O49: equal keys have equal digits, two for each byte. -/
theorem directoryKeysAreDistinct : Obligations.DirectoryKeysAreDistinct := by
  intro a b h
  have hdigits := congrArg String.toList h
  rw [keyOf_toList, keyOf_toList] at hdigits
  exact flatMap_hex2_injective hdigits

theorem flatMap_hex2_length (ident : List Byte) : (ident.flatMap hex2).length = 2 * ident.length := by
  simp [hex2_length, Nat.mul_comm]

/-- The digits of the byte at an index. -/
theorem flatMap_hex2_getElem? {ident : List Byte} {i : Nat} {b : Byte} (h : ident[i]? = some b) :
    (ident.flatMap hex2)[2 * i]? = some (hexDigit (b.extractLsb' 4 4))
      ∧ (ident.flatMap hex2)[2 * i + 1]? = some (hexDigit (b.extractLsb' 0 4)) := by
  induction ident generalizing i with
  | nil => cases h
  | cons x ident ih =>
    cases i with
    | zero =>
      cases h
      exact ⟨rfl, rfl⟩
    | succ i => exact ih h

/-- Settles O48: each byte's digits stand at their place, and the digit of a nibble is R228's. -/
theorem directoryKeyIsLowercaseHex : Obligations.DirectoryKeyIsLowercaseHex := by
  intro ident s
  refine ⟨keyOf ident, by rw [exec, execDirectoryKey, answer_eq], ?_, fun i b h => ?_⟩
  · rw [keyOf_toList, flatMap_hex2_length]
  · rw [keyOf_toList, ← highNibble_toNat, ← lowNibble_toNat, hexDigits_getElem?, hexDigits_getElem?]
    exact flatMap_hex2_getElem? h

/-! ### The lookup (R229) -/

/-- DISPATCH reads the normalised originator and the data only (R229, R230). -/
theorem dispatch_congr (cfg : Config) {t u : Telegram} (hid : normalise t.originatorId = normalise u.originatorId)
    (hdata : t.data = u.data) : dispatch cfg t = dispatch cfg u := by
  simp only [dispatch, decodeReading, hid, hdata]

theorem normalise_zeroPair (a b c d : Byte) : normalise [0x00, 0x00, a, b, c, d] = normalise [a, b, c, d] := rfl

/-- Settles O50: the lookups in their order, and `normalise_zeroPair` for the two forms of an id. -/
theorem dispatchResolvesInOrder : Obligations.DispatchResolvesInOrder := by
  refine ⟨fun t s hdir => ?_, fun t s label hdir hmap => ?_, fun t s label pid hdir hmap => ?_,
    fun cfg t a b c d => dispatch_congr cfg (normalise_zeroPair a b c d) rfl⟩
  · simp only [exec, execDispatch, answer_eq, dispatch, hdir]
  · simp only [exec, execDispatch, answer_eq, dispatch, hdir, hmap]
  · simp only [exec, execDispatch, answer_eq, dispatch, hdir, hmap]

end Sys2Proof.Machine
end

section
/-!
PROOFS. The statements of spec/45_pipeline.md: what one PIPE step emits for the frame it takes (R240), how the fields of the record agree (R241, R243), and the records of a whole channel in order (R244). The severity of an error says which stage it comes from, so each stage's errors are told by their severity.
-/

namespace Sys2Proof.Machine

/-! ### One stage after the other (R240) -/

theorem pipeFrame_of_envelopeError {s : State} {f : RawFrame} {e : ErrorName}
    (he : parseEnvelope s.cfg f = .error e) : s.pipeFrame f = s.rejectFrame e f none := by
  simp only [State.pipeFrame, he]

theorem pipeFrame_of_telegramError {s : State} {f : RawFrame} {v : Envelope} {e : ErrorName}
    (hv : parseEnvelope s.cfg f = .ok v) (he : parseTelegram s.cfg v = .error e) :
    s.pipeFrame f = s.rejectFrame e f none := by
  simp only [State.pipeFrame, hv, he]

theorem pipeFrame_of_parsed {s : State} {f : RawFrame} {v : Envelope} {t : Telegram}
    (hv : parseEnvelope s.cfg f = .ok v) (ht : parseTelegram s.cfg v = .ok t) :
    s.pipeFrame f = s.pipeTelegram f t := by
  simp only [State.pipeFrame, hv, ht]

theorem pipeTelegram_of_decodeError {s : State} {t : Telegram} {e : ErrorName} (f : RawFrame)
    (hd : s.cfg.decodersPresent = true) (he : dispatch s.cfg t = .error e) :
    s.pipeTelegram f t = s.rejectFrame e f (some t) := by
  simp only [State.pipeTelegram, hd, if_true, he]

theorem pipeTelegram_of_reading {s : State} {t : Telegram} {r : Reading} (f : RawFrame)
    (hd : s.cfg.decodersPresent = true) (hr : dispatch s.cfg t = .ok r) :
    s.pipeTelegram f t = s.acceptFrame f t (some r) := by
  simp only [State.pipeTelegram, hd, if_true, hr]

theorem pipeTelegram_of_noDecoders {s : State} (f : RawFrame) (t : Telegram)
    (hd : s.cfg.decodersPresent = false) : s.pipeTelegram f t = s.acceptFrame f t none := by
  simp only [State.pipeTelegram, hd, Bool.false_eq_true, if_false]

/-! ### One step (R240) -/

theorem exec_pipeStep_nil {s : State} (h : s.chan = []) : exec .pipeStep s = .next s := by
  simp only [exec, execPipeStep, h]

theorem exec_pipeStep_cons {s : State} {f : RawFrame} {rest : List RawFrame} (h : s.chan = f :: rest) :
    exec .pipeStep s = .next (({ s with chan := rest } : State).pipeFrame f) := by
  simp only [exec, execPipeStep, h]

/-- Settles O51: each clause is the stage the frame stops at. -/
theorem pipeStepHandlesOneFrame : Obligations.PipeStepHandlesOneFrame := by
  refine ⟨fun s hc => exec_pipeStep_nil hc, fun s f rest e hc he => ?_, fun s f rest v e hc hv he => ?_,
    fun s f rest v t e hc hv ht hd he => ?_, fun s f rest v t r hc hv ht hd hr => ?_,
    fun s f rest v t hc hv ht hd => ?_⟩ <;> refine (exec_pipeStep_cons hc).trans (congrArg _ ?_)
  · exact pipeFrame_of_envelopeError he
  · exact pipeFrame_of_telegramError hv he
  · exact (pipeFrame_of_parsed (s := { s with chan := rest }) hv ht).trans (pipeTelegram_of_decodeError f hd he)
  · exact (pipeFrame_of_parsed (s := { s with chan := rest }) hv ht).trans (pipeTelegram_of_reading f hd hr)
  · exact (pipeFrame_of_parsed (s := { s with chan := rest }) hv ht).trans (pipeTelegram_of_noDecoders f t hd)

/-- Settles O52: of the two ways `exec_pipeStep_eq_next` lists, one changes nothing and the other the
channel and RESULT_OUT. -/
theorem pipeStepFrame : Obligations.PipeStepFrame := by
  intro s t h
  obtain ⟨hempty, rfl⟩ | ⟨frame, rest, r, hchan, -, rfl⟩ := exec_pipeStep_eq_next h
  · exact ⟨rfl, fun _ => rfl, rfl, rfl, rfl, rfl, rfl, rfl, rfl, by rw [hempty]; rfl⟩
  · exact ⟨rfl, fun _ => rfl, rfl, rfl, rfl, rfl, rfl, rfl, rfl, by rw [hchan]; rfl⟩

/-! ### A whole channel (R244) -/

/-- PIPE's turn with a frame waiting takes it and emits one record, which names it (R240). -/
theorem step_pipe_cons {s : State} {f : RawFrame} {rest : List RawFrame} {ts : List Turn}
    (ho : s.serialOpen = true) (hturns : s.turns = .pipe :: ts) (hchan : s.chan = f :: rest) :
    ∃ r : Record, r.frame = f
      ∧ step s = .next { s with chan := rest, turns := ts, resultOut := s.resultOut ++ [r] } := by
  obtain ⟨-, hstep⟩ := (stepRunsDecodedOperation s).2.2 ts ho hturns (by rw [hchan]; nofun)
  obtain ⟨r, hemit, hframe⟩ := pipeFrame_emits { s with chan := rest, turns := ts } f
  refine ⟨r, hframe, hstep.trans ?_⟩
  rw [exec_pipeStep_cons (s := { s with turns := ts }) hchan, hemit]
  rfl

/-- Settles O53, by induction on the channel: the first turn emits the head's record, and the frames
left are drained from where it leads. -/
theorem drainEmitsOneRecordPerFrameInOrder : Obligations.DrainEmitsOneRecordPerFrameInOrder := by
  intro s ts ho hturns
  generalize hchan : s.chan = frames at hturns ⊢
  induction frames generalizing s with
  | nil =>
    refine ⟨[], rfl, (run_zero s).trans ?_⟩
    obtain rfl : s.turns = ts := hturns
    rw [List.append_nil, ← hchan]
  | cons f rest ih =>
    rw [List.length_cons, List.replicate_succ, List.cons_append] at hturns
    obtain ⟨r, hframe, hstep⟩ := step_pipe_cons ho hturns hchan
    obtain ⟨records, hframes, hrun⟩ :=
      ih { s with
        chan := rest, turns := List.replicate rest.length .pipe ++ ts, resultOut := s.resultOut ++ [r] } ho rfl rfl
    refine ⟨r :: records, by rw [List.map_cons, hframe, hframes], ?_⟩
    rw [List.length_cons, run_succ _ hstep, hrun, List.append_assoc, List.singleton_append]

/-! ### The errors of a stage, by their severity (R243) -/

/-- Every error a computation can end with has the severity (R243). -/
def FailsWith {α : Type} (sev : Severity) (x : Except ErrorName α) : Prop :=
  ∀ e, x = .error e → e.severity = sev

section
variable {α β : Type} {sev : Severity}

theorem failsWith_ok (a : α) : FailsWith sev (.ok a : Except ErrorName α) := nofun

theorem failsWith_error {e : ErrorName} (h : e.severity = sev) :
    FailsWith sev (.error e : Except ErrorName α) := by
  rintro _ ⟨⟩
  exact h

theorem FailsWith.bind {x : Except ErrorName α} {f : α → Except ErrorName β} (hx : FailsWith sev x)
    (hf : ∀ a, FailsWith sev (f a)) : FailsWith sev (x >>= f) := by
  cases x with
  | ok a => exact hf a
  | error e => exact failsWith_error (hx e rfl)

theorem FailsWith.map {x : Except ErrorName α} (hx : FailsWith sev x) (g : α → β) : FailsWith sev (x.map g) := by
  cases x with
  | ok a => exact failsWith_ok (g a)
  | error e => exact failsWith_error (hx e rfl)

theorem FailsWith.ite {p : Prop} [Decidable p] {x y : Except ErrorName α} (hx : FailsWith sev x)
    (hy : FailsWith sev y) : FailsWith sev (if p then x else y) := by
  split
  · exact hx
  · exact hy

theorem failsWith_ensure (c : Bool) {e : ErrorName} (h : e.severity = sev) : FailsWith sev (ensure c e) :=
  .ite (failsWith_ok ()) (failsWith_error h)

end

/-! ### The parsers' errors are normal (R150, R180) -/

theorem parseEnvelope_failsWith (cfg : Config) (f : RawFrame) : FailsWith .normal (parseEnvelope cfg f) := by
  obtain hshort | hheader := Nat.lt_or_ge f.length 6
  · rw [parseEnvelope_of_lt cfg hshort]
    exact failsWith_error rfl
  · obtain ⟨sync, hi, lo, ol, pt, hc, body, rfl⟩ := exists_header_of_length hheader
    rw [parseEnvelope_header]
    exact .ite (failsWith_error rfl) <| .ite (failsWith_error rfl) <| .ite (failsWith_error rfl) <|
      .ite (failsWith_error rfl) <| .ite (failsWith_error rfl) (failsWith_ok _)

theorem takeByte_failsWith (rest : List Byte) : FailsWith .normal (takeByte rest) := by
  cases rest with
  | nil => exact failsWith_error rfl
  | cons b rest => exact failsWith_ok _

theorem take_failsWith (w : Nat) (rest : List Byte) : FailsWith .normal (take w rest) :=
  .ite (failsWith_ok _) (failsWith_error rfl)

theorem readExtension_failsWith (present : Bool) (rest : List Byte) :
    FailsWith .normal (readExtension present rest) :=
  .ite ((takeByte_failsWith rest).map _) (failsWith_ok _)

theorem readHeaderAddresses_failsWith (h : Byte) (rest : List Byte) :
    FailsWith .normal (readHeaderAddresses h rest) := by
  have hlayout (ac : BitVec 3) : FailsWith .normal (addressLayout ac) := by
    rw [addressLayout_eq]
    exact .ite (failsWith_error rfl) (failsWith_ok _)
  have hdest (dw : Nat) (rest : List Byte) : FailsWith .normal (readDestination dw rest) :=
    .ite ((take_failsWith 4 rest).map _) (failsWith_ok _)
  exact (hlayout _).bind fun ⟨ow, dw⟩ => (take_failsWith ow rest).bind fun ⟨_, rest⟩ =>
    (hdest dw rest).bind fun _ => failsWith_ok _

theorem readHeaderData_failsWith (h : Byte) (rest : List Byte) : FailsWith .normal (readHeaderData h rest) := by
  have hlayout (ks : BitVec 4) : FailsWith .normal (kindLayout ks) := by
    rw [kindLayout_eq]
    exact .ite (failsWith_error rfl) (failsWith_ok _)
  exact (hlayout _).bind fun kind => (take_failsWith kind.dataLength rest).map _

/-- Stage by stage, in the order of R180. -/
theorem parseTelegram_failsWith (cfg : Config) (e : Envelope) : FailsWith .normal (parseTelegram cfg e) :=
  (failsWith_ensure _ rfl).bind fun _ =>
  (takeByte_failsWith _).bind fun ⟨_, _⟩ =>
  (readExtension_failsWith _ _).bind fun ⟨_, _⟩ =>
  (readExtension_failsWith _ _).bind fun ⟨_, _⟩ =>
  (readHeaderAddresses_failsWith _ _).bind fun ⟨_, _, _⟩ =>
  (readHeaderData_failsWith _ _).bind fun ⟨_, _, _⟩ =>
  (takeByte_failsWith _).bind fun ⟨_, _⟩ =>
  (failsWith_ensure _ rfl).bind fun _ =>
  (takeByte_failsWith _).bind fun ⟨_, _⟩ =>
  (takeByte_failsWith _).bind fun ⟨_, _⟩ =>
  (failsWith_ensure _ rfl).bind fun _ => failsWith_ok _

/-! ### The decoders' errors are low (R226, R229) -/

theorem temperatureDecoders_failWith (d : List Byte) :
    FailsWith .low (decode1003 d) ∧ FailsWith .low (decode0205 d) ∧ FailsWith .low (decode0401 d) := by
  obtain hshort | hwhole := Nat.lt_or_ge d.length 3
  · obtain ⟨h1003, h0205, h0401⟩ := temperatureDecoders_of_lt hshort
    rw [h1003, h0205, h0401]
    exact ⟨failsWith_error rfl, failsWith_error rfl, failsWith_error rfl⟩
  · obtain ⟨d0, d1, d2, ds, rfl⟩ := exists_three_bytes hwhole
    exact ⟨failsWith_ok _, failsWith_ok _, failsWith_ok _⟩

theorem contactAndRockerDecoders_failWith (d : List Byte) :
    FailsWith .low (decode0001 d) ∧ FailsWith .low (decode0204 d) := by
  cases d with
  | nil => exact ⟨failsWith_error rfl, failsWith_error rfl⟩
  | cons d0 ds => exact ⟨failsWith_ok _, failsWith_ok _⟩

theorem decodeReading_failsWith (pid : String) (t : Telegram) : FailsWith .low (decodeReading pid t) := by
  obtain ⟨h1003, h0205, h0401⟩ := temperatureDecoders_failWith t.data
  obtain ⟨h0001, h0204⟩ := contactAndRockerDecoders_failWith t.data
  exact .ite h1003 <| .ite h0205 <| .ite h0401 <| .ite h0001 <| .ite h0204 <| failsWith_error rfl

theorem dispatch_failsWith (cfg : Config) (t : Telegram) : FailsWith .low (dispatch cfg t) := by
  unfold dispatch
  split
  · exact failsWith_error rfl
  · split
    · exact failsWith_error rfl
    · exact decodeReading_failsWith _ t

/-! ### The record of a frame (R241, R243) -/

/-- Everything PIPE can make of a frame: a parser's error, a decode error with the telegram, or OK with
the telegram, and with a reading just where the decoders are present (R241). -/
theorem pipeFrame_cases (s : State) (f : RawFrame) :
    (∃ e, e.severity = .normal ∧ s.pipeFrame f = s.rejectFrame e f none)
      ∨ (∃ e t, e.severity = .low ∧ s.pipeFrame f = s.rejectFrame e f (some t))
      ∨ ∃ t r, r.isSome = s.cfg.decodersPresent ∧ s.pipeFrame f = s.acceptFrame f t r := by
  cases hv : parseEnvelope s.cfg f with
  | error e => exact .inl ⟨e, parseEnvelope_failsWith _ _ e hv, pipeFrame_of_envelopeError hv⟩
  | ok v =>
    cases ht : parseTelegram s.cfg v with
    | error e => exact .inl ⟨e, parseTelegram_failsWith _ _ e ht, pipeFrame_of_telegramError hv ht⟩
    | ok t =>
      rw [pipeFrame_of_parsed hv ht]
      cases hd : s.cfg.decodersPresent with
      | false => exact .inr (.inr ⟨t, none, rfl, pipeTelegram_of_noDecoders f t hd⟩)
      | true =>
        cases hr : dispatch s.cfg t with
        | error e => exact .inr (.inl ⟨e, t, dispatch_failsWith _ _ e hr, pipeTelegram_of_decodeError f hd hr⟩)
        | ok r => exact .inr (.inr ⟨t, some r, rfl, pipeTelegram_of_reading f hd hr⟩)

/-- The codes of the errors against their severities, row by row of R251's table. -/
theorem errorCode_table (e : ErrorName) :
    e.severity ≠ .none ∧ e.code ≠ 0x00 ∧ (e.severity = .low ↔ e.code ∈ [0x30, 0x31, 0x32])
      ∧ e.code ∈ [0x10, 0x11, 0x12, 0x13, 0x14, 0x15, 0x20, 0x21, 0x22, 0x23, 0x24, 0x25, 0x30, 0x31, 0x32] := by
  cases e <;> decide

/-- The relations between the fields of a record that R241 and R243 state, with the decoders present or
not. -/
def Record.Agrees (r : Record) (decodersPresent : Bool) : Prop :=
  (r.severity = .none ↔ r.code = 0x00)
    ∧ (r.severity = .low ↔ r.code ∈ [0x30, 0x31, 0x32])
    ∧ (r.telegram.isSome = true ↔ r.code ∈ [0x00, 0x30, 0x31, 0x32])
    ∧ (r.reading.isSome = true ↔ r.code = 0x00 ∧ decodersPresent = true)
    ∧ r.code ∈ [0x00, 0x10, 0x11, 0x12, 0x13, 0x14, 0x15, 0x20, 0x21, 0x22, 0x23, 0x24, 0x25, 0x30, 0x31, 0x32]

/-- A rejected frame's record agrees where it names the telegram just for the errors of low severity. -/
theorem agrees_of_rejected {e : ErrorName} {t : Option Telegram} (f : RawFrame) (decodersPresent : Bool)
    (ht : t.isSome = true ↔ e.severity = .low) :
    Record.Agrees ⟨e.code, f, t, none, e.severity⟩ decodersPresent := by
  obtain ⟨hsev, hcode, hlow, hmem⟩ := errorCode_table e
  refine ⟨iff_of_false hsev hcode, hlow, ?_, iff_of_false nofun fun h => hcode h.1, .tail _ hmem⟩
  rw [List.mem_cons, or_iff_right hcode]
  exact ht.trans hlow

theorem agrees_of_accepted {r : Option Reading} {decodersPresent : Bool} (f : RawFrame) (t : Telegram)
    (hr : r.isSome = decodersPresent) : Record.Agrees ⟨codeOk, f, some t, r, .none⟩ decodersPresent := by
  subst hr
  have hlow : codeOk ∉ [0x30, 0x31, 0x32] := by decide
  exact ⟨iff_of_true rfl rfl, iff_of_false nofun hlow, iff_of_true rfl (.head _), (and_iff_right rfl).symm, .head _⟩

/-- Settles O54, for each way `pipeFrame_cases` lists. -/
theorem recordFieldsAgree : Obligations.RecordFieldsAgree := by
  intro s t f rest hc h
  obtain rfl := Host.Outcome.next.inj ((exec_pipeStep_cons hc).symm.trans h)
  obtain ⟨e, hsev, heq⟩ | ⟨e, tel, hsev, heq⟩ | ⟨tel, r, hr, heq⟩ := pipeFrame_cases { s with chan := rest } f
  · rw [heq]
    exact ⟨_, rfl, rfl, agrees_of_rejected f _ (iff_of_false nofun (by rw [hsev]; decide))⟩
  · rw [heq]
    exact ⟨_, rfl, rfl, agrees_of_rejected f _ (iff_of_true rfl hsev)⟩
  · rw [heq]
    exact ⟨_, rfl, rfl, agrees_of_accepted f tel hr⟩

end Sys2Proof.Machine
end

section
/-!
PROOFS. The statements of spec/60_exceptions.md: the codes of R251, whose turn it is when none is listed (R262, R264), what a transport that is not open leaves running (R257), and that no state of the invariant faults (R252).
-/

namespace Sys2Proof.Machine

/-! ### The codes (R251) -/

/-- The errors in the order of R251's table. -/
def errorTable : List ErrorName :=
  [.tooShort, .badSync, .headerChecksumMismatch, .unsupportedPacketType, .lengthMismatch, .oversizedFrame,
    .unsupportedShortTelegram, .unsupportedAddressControl, .unsupportedTelegramKind, .dataChecksumMismatch,
    .optionalChecksumMismatch, .telegramTruncated, .missingDataByte, .unmappedDevice, .unsupportedModel]

theorem mem_errorTable (e : ErrorName) : e ∈ errorTable := by
  cases e <;> decide

/-- The table lists every error, and no code twice. -/
theorem errorCode_injective : Function.Injective ErrorName.code := fun e e' h =>
  List.inj_on_of_nodup_map (by decide : (errorTable.map ErrorName.code).Nodup) (mem_errorTable e) (mem_errorTable e') h

/-- Settles O55: the table row by row; `errorCode_injective` for its last clause. -/
theorem errorCodesAreTheTables : Obligations.ErrorCodesAreTheTables :=
  ⟨rfl, rfl, fun _ _ => ⟨rfl, rfl, rfl⟩, fun _ _ h => errorCode_injective h⟩

/-! ### With no turn listed (R262, R264) -/

theorem asmEnabled_eq_false {s : State} (h : s.serialOpen = false ∨ s.byteIn = [] ∨ s.asmHeld = true) :
    s.asmEnabled = false := by
  rw [Bool.eq_false_iff, ne_eq, asmEnabled_iff]
  rintro ⟨hopen, hbytes, hfree⟩
  obtain hshut | hempty | hheld := h
  · exact absurd (hshut.symm.trans hopen) (by decide)
  · exact hbytes hempty
  · exact absurd (hheld.symm.trans hfree) (by decide)

theorem pipeEnabled_eq_false {s : State} (h : s.serialOpen = false ∨ s.chan = []) : s.pipeEnabled = false := by
  rw [Bool.eq_false_iff, ne_eq, pipeEnabled_iff]
  rintro ⟨hopen, hframes⟩
  obtain hshut | hempty := h
  · exact absurd (hshut.symm.trans hopen) (by decide)
  · exact hframes hempty

theorem fetch_unscheduled_asm {s : State} (ht : s.turns = []) (he : s.asmEnabled = true) : fetch s = fetchAsm s := by
  simp only [fetch, ht, he, if_true]

theorem fetch_unscheduled_pipe {s : State} (ht : s.turns = []) (he : s.asmEnabled = false) :
    fetch s = fetchPipe s := by
  simp only [fetch, ht, he, Bool.false_eq_true, if_false]

/-- With neither agent enabled the machine waits (R264). -/
theorem step_unscheduled_waits {s : State} (ht : s.turns = []) (ha : s.asmEnabled = false)
    (hp : s.pipeEnabled = false) : step s = .next s := by
  have hf : fetchPipe s = .settled s := by simp only [fetchPipe, hp, Bool.false_eq_true, if_false]
  exact step_of_settled ((fetch_unscheduled_pipe ht ha).trans hf)

/-- Settles O5: what is fetched where ASM is enabled, where PIPE alone is, and where neither is. -/
theorem unscheduledTurnGoesToAsmThenPipe : Obligations.UnscheduledTurnGoesToAsmThenPipe := by
  intro s ho ht
  refine ⟨fun b bs hb hh => ?_, fun hwait hc => ?_, fun hwait hc => ?_⟩
  · have he : s.asmEnabled = true := (asmEnabled_iff s).mpr ⟨ho, by rw [hb]; nofun, hh⟩
    exact step_of_run_ok ((fetch_unscheduled_asm ht he).trans (fetchAsm_of_byte ho hb hh)) (decode_asmTxn s.asmSt b)
  · have hf := fetch_unscheduled_pipe ht (asmEnabled_eq_false (.inr hwait))
    exact step_of_run_ok (hf.trans (fetchPipe_of_frame ho hc)) decode_pipeAgent
  · exact step_unscheduled_waits ht (asmEnabled_eq_false (.inr hwait)) (pipeEnabled_eq_false (.inr hc))

/-! ### The transport not open, and faults (R252, R257) -/

/-- With the transport not open no agent acts, so that a step is the schedule's own part, a reset or a call. -/
theorem step_unopened {s t : State} (ho : s.serialOpen = false) (h : step s = .next t) :
    t.serialOpen = false ∧ t.resultOut = s.resultOut
      ∧ ((∀ ts, s.turns ≠ .reset :: ts) →
        t.asmSt = s.asmSt ∧ t.frameBuf = s.frameBuf ∧ t.chan = s.chan ∧ t.trace = s.trace) := by
  obtain ⟨u, hu, rfl | ⟨⟨ts, hts⟩, rfl⟩ | ⟨hopen, -⟩ | ⟨hopen, -⟩ | ⟨r, rfl⟩⟩ := step_cases h
  · exact ⟨hu.serialOpen.trans ho, hu.resultOut, fun _ => ⟨hu.asmSt, hu.frameBuf, hu.chan, hu.trace⟩⟩
  · exact ⟨hu.serialOpen.trans ho, hu.resultOut, fun hnone => absurd hts (hnone ts)⟩
  · exact absurd (ho.symm.trans hopen) (by decide)
  · exact absurd (ho.symm.trans hopen) (by decide)
  · exact ⟨hu.serialOpen.trans ho, hu.resultOut, fun _ => ⟨hu.asmSt, hu.frameBuf, hu.chan, hu.trace⟩⟩

theorem exec_pipeStep_ne_fault (s : State) (f : Fault) : exec .pipeStep s ≠ .fault f := by
  cases hc : s.chan with
  | nil => rw [exec_pipeStep_nil hc]; exact nofun
  | cons frame rest => rw [exec_pipeStep_cons hc]; exact nofun

theorem step_call_ne_fault {s u : State} {c : CallSlot} {text : String} {bytes : List Byte}
    (hf : fetch s = .run ⟨.call c, text, bytes⟩ u) (f : Fault) : step s ≠ .fault f := by
  cases hd : decode ⟨.call c, text, bytes⟩ with
  | error e => rw [step_of_run_error hf hd]; exact nofun
  | ok i =>
    obtain ⟨r, hr⟩ := exec_eq_answer_of_call (decode_call_slot hd)
    rw [step_of_run_ok hf hd, hr, answer_eq]
    exact nofun

/-- In a state of the invariant no step faults: only the assembler's operations can, and an enabled one has a
next state there (R25, R126). -/
theorem step_ne_fault {s : State} (h : s.Inv) (f : Fault) : step s ≠ .fault f := by
  obtain ⟨u, hu, hf | ⟨-, hf⟩ | ⟨-, hfree, b, hf⟩ | ⟨-, -, hf⟩ | ⟨c, text, bytes, -, -, hf⟩⟩ := fetch_cases s
  · rw [step_of_settled hf]; exact nofun
  · rw [step_of_settled hf]; exact nofun
  · have hfree' : u.asmHeld = false := (asmHeld_congr hu.cfg hu.asmSt hu.frameBuf hu.chan).trans hfree
    obtain ⟨t, ht⟩ := exec_asmOperation_next (hu.inv h) hfree' b
    rw [step_of_run_ok hf (decode_asmTxn s.asmSt b), ← hu.asmSt, ht]
    exact nofun
  · rw [step_of_run_ok hf decode_pipeAgent]
    exact exec_pipeStep_ne_fault u f
  · exact step_call_ne_fault hf f

/-- Settles O24, from `step_unopened` and `step_ne_fault`; an agent's turn passes, and so does no turn. -/
theorem onlyUnopenedTransportIsFatal : Obligations.OnlyUnopenedTransportIsFatal := by
  refine ⟨fun s t ho h => step_unopened ho h, fun s ts ho ht => ?_, fun s ho ht => ?_, fun s f h => step_ne_fault h f⟩
  · obtain ⟨hasm, hpipe⟩ := turnWithoutEnabledStepChangesNothing s ts
    obtain ht | ht := ht
    · exact hasm ht (.inr (.inr ho))
    · exact hpipe ht (.inr ho)
  · exact step_unscheduled_waits ht (asmEnabled_eq_false (.inl ho)) (pipeEnabled_eq_false (.inl ho))

end Sys2Proof.Machine
end

section
/-!
PROOFS. The statement of spec/60_exceptions.md R262 on the agents' order. With an unbounded channel ASM's turn reads neither the frames waiting nor the records and puts its frame behind; PIPE's turn reads the head of the channel and the constant state.
-/

namespace Sys2Proof.Machine

/-- The state with these frames in the channel, these records emitted and these turns to come. -/
def State.withQueues (s : State) (frames : List RawFrame) (records : List Record) (turns : List Turn) : State :=
  { s with chan := frames, resultOut := records, turns := turns }

/-- From `s`, whatever the queues hold, `act` stops with one fault, or leads to one state, behind the same queues
but for frames put at the end of the channel. -/
inductive ActsBehindQueues (s : State) (act : State → Host.Outcome State Fault Refusal) : Prop where
  | fault (f : Fault) (stops : ∀ frames records turns, act (s.withQueues frames records turns) = .fault f)
  | next (t : State) (emitted : List RawFrame) (cfg : t.cfg = s.cfg) (serialOpen : t.serialOpen = s.serialOpen)
      (goes : ∀ frames records turns,
        act (s.withQueues frames records turns) = .next (t.withQueues (frames ++ emitted) records turns))

/-! ### The assembler's operations -/

theorem appendByte_withQueues (s : State) (b : Byte) (frames : List RawFrame) (records : List Record)
    (turns : List Turn) : (s.withQueues frames records turns).appendByte b
      = (s.appendByte b).map (·.withQueues frames records turns) := by
  change (if s.asmLen < maxFrame then _ else _) = (if s.asmLen < maxFrame then _ else _ : Except Fault State).map _
  split_ifs <;> rfl

/-- What acts behind the queues on `u` does so on `s`, where it is what is left to do there. -/
theorem ActsBehindQueues.of_eq {s u : State} {act act' : State → Host.Outcome State Fault Refusal}
    (h : ActsBehindQueues u act) (hcfg : u.cfg = s.cfg) (ho : u.serialOpen = s.serialOpen)
    (heq : ∀ frames records turns,
      act' (s.withQueues frames records turns) = act (u.withQueues frames records turns)) : ActsBehindQueues s act' := by
  obtain ⟨f, stops⟩ | ⟨t, emitted, hcfg', ho', goes⟩ := h
  · exact .fault f fun frames records turns => (heq frames records turns).trans (stops frames records turns)
  · exact .next t emitted (hcfg'.trans hcfg) (ho'.trans ho) fun frames records turns =>
      (heq frames records turns).trans (goes frames records turns)

/-- An operation that emits nothing. -/
theorem ActsBehindQueues.quiet {s : State} {act : State → Host.Outcome State Fault Refusal} (t : State)
    (hcfg : t.cfg = s.cfg) (ho : t.serialOpen = s.serialOpen)
    (h : ∀ frames records turns, act (s.withQueues frames records turns) = .next (t.withQueues frames records turns)) :
    ActsBehindQueues s act :=
  .next t [] hcfg ho fun frames records turns => by rw [List.append_nil, h]

/-- An append, and what follows it. -/
theorem ActsBehindQueues.append {s : State} {b : Byte} {k : State → Except Fault State}
    (h : ∀ u, u.cfg = s.cfg → ActsBehindQueues u (fun v => outcomeOf (k v))) :
    ActsBehindQueues s (fun v => outcomeOf (v.appendByte b >>= k)) := by
  cases happend : s.appendByte b with
  | error f => exact .fault f fun _ _ _ => by rw [appendByte_withQueues, happend]; rfl
  | ok u =>
    obtain ⟨hcfg, ho⟩ : u.cfg = s.cfg ∧ u.serialOpen = s.serialOpen := by
      obtain ⟨-, rfl⟩ := appendByte_eq_ok.mp happend
      exact ⟨rfl, rfl⟩
    exact (h u hcfg).of_eq hcfg ho fun _ _ _ => by rw [appendByte_withQueues, happend]; rfl

/-- A read of the announced length, and what follows it. -/
theorem ActsBehindQueues.readTotal {s : State} {k : State → Nat → Except Fault State}
    (h : ∀ n, ActsBehindQueues s (fun v => outcomeOf (k v n))) :
    ActsBehindQueues s (fun v => outcomeOf (v.readTotal >>= k v)) := by
  have htotal : ∀ frames records turns, (s.withQueues frames records turns).readTotal = s.readTotal :=
    fun _ _ _ => rfl
  cases hn : s.readTotal with
  | error f => exact .fault f fun _ _ _ => by rw [htotal, hn]; rfl
  | ok n => exact (h n).of_eq rfl rfl fun _ _ _ => by rw [htotal, hn]; rfl

/-- A frame always has room in an unbounded channel, at its end (R126). -/
theorem emitFrame_behindQueues {s : State} (hd : s.cfg.fifoDepth = .unbounded) :
    ActsBehindQueues s (fun v => outcomeOf v.emitFrame) :=
  .next { s.clearBuf with asmSt := .waitSync } [s.asmBuf] rfl rfl fun frames records turns => by
    rw [State.emitFrame, deliver_of_room (s := s.withQueues frames records turns) _ (chanHasRoom_unbounded hd)]
    rfl

theorem appendThen_behindQueues (s : State) (b : Byte) (st : AsmSt) :
    ActsBehindQueues s (fun v => outcomeOf (appendThen b st v)) := by
  have hgo : ActsBehindQueues s (fun v => outcomeOf (v.appendByte b >>= fun w => .ok { w with asmSt := st })) :=
    .append fun u _ => .quiet { u with asmSt := st } rfl rfl fun _ _ _ => rfl
  refine hgo.of_eq rfl rfl fun frames records turns => congrArg outcomeOf ?_
  unfold appendThen
  cases (s.withQueues frames records turns).appendByte b <;> rfl

/-- With an unbounded channel the assembler's operations act behind the queues. -/
theorem exec_asmOperation_behindQueues {s : State} (hd : s.cfg.fifoDepth = .unbounded) (st : AsmSt) (b : Byte) :
    ActsBehindQueues s (exec (asmOperation st b)) := by
  cases st with
  | waitSync =>
    by_cases hb : b = 0x55
    · subst hb
      exact (appendThen_behindQueues s 0x55 .readLenHi).of_eq rfl rfl fun _ _ _ => execAsmWaitSync_sync _
    · exact .quiet { s with trace := s.trace ++ [.discard b], asmSt := .waitSync } rfl rfl
        fun _ _ _ => execAsmWaitSync_discard _ hb
  | readLenHi => exact appendThen_behindQueues s b .readLenLo
  | readLenLo => exact appendThen_behindQueues s b .readOptLen
  | readOptLen =>
    refine .append fun u _ => .readTotal fun n => ?_
    by_cases hn : maxFrame < n
    · exact .quiet u.dropOversize rfl rfl fun _ _ _ => congrArg outcomeOf (if_pos hn)
    · exact .quiet { u with asmSt := .readBody } rfl rfl fun _ _ _ => congrArg outcomeOf (if_neg hn)
  | readBody =>
    refine .append fun u hcfg => .readTotal fun n => ?_
    by_cases hn : u.asmLen = n
    · exact (emitFrame_behindQueues (hcfg ▸ hd)).of_eq rfl rfl fun _ _ _ => congrArg outcomeOf (if_pos hn)
    · exact .quiet { u with asmSt := .readBody } rfl rfl fun _ _ _ => congrArg outcomeOf (if_neg hn)

/-! ### The agents' turns -/

/-- With an unbounded channel nothing holds the assembler (R126). -/
theorem asmHeld_of_unbounded {s : State} (hd : s.cfg.fifoDepth = .unbounded) : s.asmHeld = false :=
  asmHeld_of_not_full (chanFull_of_room (chanHasRoom_unbounded hd))

/-- ASM's turn, with a byte waiting or not. -/
theorem asmTurn_behindQueues {s : State} (ho : s.serialOpen = true) (hd : s.cfg.fifoDepth = .unbounded) :
    ActsBehindQueues s (fun v => step { v with turns := .asm :: v.turns }) := by
  cases hb : s.byteIn with
  | nil =>
    exact .quiet s rfl rfl fun frames records turns =>
      (turnWithoutEnabledStepChangesNothing (s.withQueues frames records (.asm :: turns)) turns).1 rfl (.inl hb)
  | cons b bs =>
    exact (exec_asmOperation_behindQueues (s := { s with byteIn := bs }) hd s.asmSt b).of_eq rfl rfl
      fun frames records turns =>
        ((stepRunsDecodedOperation (s.withQueues frames records (.asm :: turns))).2.1 b bs turns ho rfl hb
          (asmHeld_of_unbounded hd)).2

/-- The record of a frame reads the frame and the constant state only (R240). -/
theorem pipeFrame_emits_by_cfg (cfg : Config) (frame : RawFrame) :
    ∃ r : Record, ∀ s : State, s.cfg = cfg → s.pipeFrame frame = s.emitResult r := by
  cases hv : parseEnvelope cfg frame with
  | error e => exact ⟨_, by rintro s rfl; exact pipeFrame_of_envelopeError hv⟩
  | ok v =>
    cases ht : parseTelegram cfg v with
    | error e => exact ⟨_, by rintro s rfl; exact pipeFrame_of_telegramError hv ht⟩
    | ok t =>
      cases hd : cfg.decodersPresent with
      | false =>
        exact ⟨_, by rintro s rfl; exact (pipeFrame_of_parsed hv ht).trans (pipeTelegram_of_noDecoders frame t hd)⟩
      | true =>
        cases hr : dispatch cfg t with
        | error e =>
          exact ⟨_, by rintro s rfl; exact (pipeFrame_of_parsed hv ht).trans (pipeTelegram_of_decodeError frame hd hr)⟩
        | ok r =>
          exact ⟨_, by rintro s rfl; exact (pipeFrame_of_parsed hv ht).trans (pipeTelegram_of_reading frame hd hr)⟩

/-- PIPE's turn with a frame at the head of the channel emits the same record from every state with the same
constant state. -/
theorem pipeTurn_emits (cfg : Config) (frame : RawFrame) :
    ∃ r : Record, ∀ s : State, s.cfg = cfg → s.serialOpen = true → ∀ frames records turns,
      step (s.withQueues (frame :: frames) records (.pipe :: turns))
        = .next (s.withQueues frames (records ++ [r]) turns) := by
  obtain ⟨r, hr⟩ := pipeFrame_emits_by_cfg cfg frame
  refine ⟨r, fun s hs ho frames records turns => ?_⟩
  obtain ⟨-, hstep⟩ :=
    (stepRunsDecodedOperation (s.withQueues (frame :: frames) records (.pipe :: turns))).2.2 turns ho rfl nofun
  have hexec := exec_pipeStep_cons (s := s.withQueues (frame :: frames) records turns) rfl
  exact hstep.trans (hexec.trans (congrArg _ (hr (s.withQueues frames records turns) hs)))

/-- A fault ends a run. -/
theorem run_succ_of_fault {s : State} {f : Fault} (k : Nat) (h : step s = .fault f) :
    Host.Core.run Sys2Proof.core (k + 1) s = .fault f := by
  have h' : Sys2Proof.core.step s = .fault f := h
  simp only [Host.Core.run, h']

/-- Settles O58: ASM's turn acts alike in front of PIPE's and behind it, and PIPE's emits the same record in both
places; a fault of ASM's ends either run. -/
theorem agentStepsCommute : Obligations.AgentStepsCommute := by
  intro s ts ho hd hc
  obtain ⟨frame, rest, hchan⟩ := List.exists_cons_of_ne_nil hc
  have hself : ∀ turns, ({ s with turns := turns } : State) = s.withQueues (frame :: rest) s.resultOut turns :=
    fun turns => by rw [State.withQueues, ← hchan]
  obtain ⟨r, hpipe⟩ := pipeTurn_emits s.cfg frame
  have hpipeFirst := hpipe s rfl ho rest s.resultOut (.asm :: ts)
  rw [hself, hself, run_succ 1 hpipeFirst]
  obtain ⟨f, stops⟩ | ⟨t, emitted, hcfg, hopen, goes⟩ := asmTurn_behindQueues ho hd
  · have hfirst := run_succ_of_fault 1 (stops (frame :: rest) s.resultOut (.pipe :: ts))
    have hsecond := run_succ_of_fault 0 (stops rest (s.resultOut ++ [r]) ts)
    exact hfirst.trans hsecond.symm
  · have hfirst := run_succ 1 (goes (frame :: rest) s.resultOut (.pipe :: ts))
    have hpipeSecond := run_succ 0 (hpipe t hcfg (hopen.trans ho) (rest ++ emitted) s.resultOut ts)
    have hsecond := run_succ 0 (goes rest (s.resultOut ++ [r]) ts)
    exact (hfirst.trans hpipeSecond).trans hsecond.symm

end Sys2Proof.Machine
end

section
/-!
PROOFS. The statement of spec/60_exceptions.md R262 on draining: with no turn listed every step of an open machine with work waiting takes some of it.
-/

namespace Sys2Proof.Machine

/-- The steps that the waiting bytes and frames can still take: a byte may put one frame into the channel. -/
def State.workWaiting (s : State) : Nat := 2 * s.byteIn.length + s.chan.length

theorem workWaiting_eq_zero {s : State} (h : s.workWaiting = 0) : s.byteIn = [] ∧ s.chan = [] := by
  unfold State.workWaiting at h
  exact ⟨List.eq_nil_of_length_eq_zero (by omega), List.eq_nil_of_length_eq_zero (by omega)⟩

/-- A held assembler waits for a full channel, and a full channel is not empty, its depth being positive (R126). -/
theorem chan_ne_nil_of_asmHeld {s : State} (h : s.asmHeld = true) : s.chan ≠ [] := by
  obtain ⟨-, -, -, hfull⟩ := (asmHeld_iff s).mp h
  intro hempty
  unfold State.chanFull at hfull
  split at hfull
  · cases hfull
  · next d hd =>
    have hpos := depthOf_pos hd
    rw [hempty, beq_iff_eq, List.length_nil] at hfull
    omega

/-- An assembler operation puts at most one frame into the channel (R125, R126). -/
theorem exec_asmOperation_chan_length {st : AsmSt} {b : Byte} {s t : State}
    (h : exec (asmOperation st b) s = .next t) : t.chan.length ≤ s.chan.length + 1 := by
  obtain ⟨_, -, -, rfl⟩ | ⟨-, -, rfl⟩ | ⟨-, -, -, hchan⟩ := exec_asmOperation_cases h
  · exact Nat.le_succ _
  · exact Nat.le_succ _
  · by_cases hst : st = .readBody
    · subst hst
      obtain ⟨_, -, -, ⟨-, rfl⟩ | ⟨-, -, rfl⟩ | ⟨-, -, -, rfl⟩⟩ := execAsmBody_eq_next h
      · exact Nat.le_succ _
      · exact (List.length_append ..).le
      · simp only [List.length_append, List.length_tail, List.length_singleton]
        omega
    · rw [hchan hst]
      exact Nat.le_succ _

/-- What an unscheduled step of an open machine keeps, and the work it takes. -/
structure DrainsTo (s t : State) : Prop where
  inv : t.Inv
  opened : t.serialOpen = true
  turns : t.turns = []
  work : t.workWaiting ≤ s.workWaiting - 1

/-- ASM's step takes a byte and leaves at most a frame for it. -/
theorem exec_asmOperation_drains {s t : State} {b : Byte} {bs : List Byte} (h : s.Inv) (ho : s.serialOpen = true)
    (ht : s.turns = []) (hb : s.byteIn = b :: bs)
    (hexec : exec (asmOperation s.asmSt b) { s with byteIn := bs } = .next t) : DrainsTo s t := by
  have hu : ({ s with byteIn := bs } : State).Inv := h
  have hframe := exec_asmOperation_frame hexec
  have hbytes : t.byteIn = bs := by rw [hframe]
  have hchan := exec_asmOperation_chan_length hexec
  refine ⟨exec_asmOperation_keeps_inv hu hexec, by rw [hframe]; exact ho, by rw [hframe]; exact ht, ?_⟩
  simp only [State.workWaiting, hbytes, hb, List.length_cons] at hchan ⊢
  omega

/-- PIPE's step takes a frame. -/
theorem exec_pipeStep_drains {s : State} (h : s.Inv) (ho : s.serialOpen = true) (ht : s.turns = [])
    (hc : s.chan ≠ []) : ∃ t, exec .pipeStep s = .next t ∧ DrainsTo s t := by
  obtain ⟨frame, rest, hcons⟩ := List.exists_cons_of_ne_nil hc
  have hexec := exec_pipeStep_cons hcons
  refine ⟨_, hexec, ?_⟩
  obtain ⟨-, -, -, -, hbytes, -, hturns, -, hopen, hchan⟩ := pipeStepFrame _ _ hexec
  refine ⟨exec_pipeStep_keeps_inv h hexec, hopen.trans ho, hturns.trans ht, ?_⟩
  rw [State.workWaiting, State.workWaiting, hbytes, hchan, List.length_tail]
  have := List.length_pos_iff.mpr hc
  omega

/-- An unscheduled step of an open machine in a state of the invariant takes some of the work waiting, if there
is any: a held assembler leaves the step to PIPE, which then has a frame. -/
theorem step_drains {s : State} (h : s.Inv) (ho : s.serialOpen = true) (ht : s.turns = []) :
    ∃ t, step s = .next t ∧ DrainsTo s t := by
  obtain ⟨hasm, hpipe, hwaits⟩ := unscheduledTurnGoesToAsmThenPipe s ho ht
  have pipe : s.byteIn = [] ∨ s.asmHeld = true → s.chan ≠ [] → ∃ t, step s = .next t ∧ DrainsTo s t :=
    fun hwait hc => hpipe hwait hc ▸ exec_pipeStep_drains h ho ht hc
  cases hb : s.byteIn with
  | nil =>
    by_cases hc : s.chan = []
    · exact ⟨s, hwaits (.inl hb) hc, h, ho, ht, by simp only [State.workWaiting, hb, hc, List.length_nil]; omega⟩
    · exact pipe (.inl hb) hc
  | cons b bs =>
    cases hheld : s.asmHeld with
    | true => exact pipe (.inr hheld) (chan_ne_nil_of_asmHeld hheld)
    | false =>
      have hu : ({ s with byteIn := bs } : State).Inv := h
      obtain ⟨t, hexec⟩ := exec_asmOperation_next hu hheld b
      exact ⟨t, (hasm b bs hb hheld).trans hexec, exec_asmOperation_drains h ho ht hb hexec⟩

/-- As many unscheduled steps as there is work take all of it. -/
theorem run_drains (n : Nat) {s : State} (h : s.Inv) (ho : s.serialOpen = true) (ht : s.turns = [])
    (hwork : s.workWaiting ≤ n) : ∃ t, Host.Core.run Sys2Proof.core n s = .next t ∧ t.workWaiting = 0 := by
  induction n generalizing s with
  | zero => exact ⟨s, run_zero s, Nat.le_zero.mp hwork⟩
  | succ n ih =>
    obtain ⟨u, hstep, hu⟩ := step_drains h ho ht
    obtain ⟨t, hrun, hdone⟩ := ih hu.inv hu.opened hu.turns (hu.work.trans (Nat.sub_le_of_le_add hwork))
    exact ⟨t, (run_succ n hstep).trans hrun, hdone⟩

/-- Settles O59: the number of steps given is the work waiting (`run_drains`). -/
theorem unscheduledMachineDrains : Obligations.UnscheduledMachineDrains := by
  intro s h ho ht
  obtain ⟨t, hrun, hdone⟩ := run_drains s.workWaiting h ho ht le_rfl
  exact ⟨t, hrun, workWaiting_eq_zero hdone⟩

end Sys2Proof.Machine
end

section
/-!
PROOFS. The statements of spec/70_reset_and_hazards.md: what a reset turn writes (R280, R281), and that no step reads the last result, which only a direct call writes (R286).
-/

namespace Sys2Proof.Machine

/-! ### Reset (R280, R281) -/

theorem fetch_reset {s : State} {ts : List Turn} (ht : s.turns = .reset :: ts) :
    fetch s = .settled ({ s with turns := ts } : State).applyReset := by
  simp only [fetch, ht, fetchTurn]

/-- Settles O7: a reset turn runs no operation and leaves what `applyReset` writes. -/
theorem resetTurnRestoresResetValues : Obligations.ResetTurnRestoresResetValues :=
  fun _ _ ht => step_of_settled (fetch_reset ht)

/-! ### The last result in the schedule (R286) -/

/-- The state with this last result. -/
def State.withResult (s : State) (r : Option Result) : State := { s with lastResult := r }

/-- What the fetch finds, with this last result in the state it leads to. -/
def Fetched.withResult (r : Option Result) : Fetched → Fetched
  | .settled s => .settled (s.withResult r)
  | .run x s => .run x (s.withResult r)

section
variable (s : State) (r : Option Result)

theorem asmEnabled_withResult : (s.withResult r).asmEnabled = s.asmEnabled := rfl

theorem pipeEnabled_withResult : (s.withResult r).pipeEnabled = s.pipeEnabled := rfl

theorem fetchAsm_withResult : fetchAsm (s.withResult r) = (fetchAsm s).withResult r := by
  obtain ⟨hoff, hf⟩ | ⟨hon, b, rest, hb, hf⟩ := fetchAsm_cases s
  · rw [hf, fetchAsm, asmEnabled_withResult, hoff]
    rfl
  · obtain ⟨ho, -, hfree⟩ := (asmEnabled_iff s).mp hon
    rw [hf]
    exact fetchAsm_of_byte (s := s.withResult r) ho hb hfree

theorem fetchPipe_withResult : fetchPipe (s.withResult r) = (fetchPipe s).withResult r := by
  rw [fetchPipe, fetchPipe, pipeEnabled_withResult]
  split_ifs <;> rfl

/-- The fetch does not read the last result. -/
theorem fetch_withResult : fetch (s.withResult r) = (fetch s).withResult r := by
  have hturns : (s.withResult r).turns = s.turns := rfl
  unfold fetch
  rw [hturns, asmEnabled_withResult]
  split
  · split_ifs
    · exact fetchAsm_withResult s r
    · exact fetchPipe_withResult s r
  · next turn ts _ =>
    cases turn with
    | reset | byte | call => rfl
    | asm => exact fetchAsm_withResult { s with turns := ts } r
    | pipe => exact fetchPipe_withResult { s with turns := ts } r

end

/-! ### The last result in the agents' operations (R120, R240) -/

section
variable {s t : State} {b : Byte} (r : Option Result)

theorem appendByte_withResult (h : s.appendByte b = .ok t) :
    (s.withResult r).appendByte b = .ok (t.withResult r) := by
  obtain ⟨hlen, rfl⟩ := appendByte_eq_ok.mp h
  exact appendByte_eq_ok.mpr ⟨hlen, rfl⟩

theorem appendThen_withResult {st : AsmSt} (h : appendThen b st s = .ok t) :
    appendThen b st (s.withResult r) = .ok (t.withResult r) := by
  obtain ⟨hlen, rfl⟩ := appendThen_eq_ok.mp h
  exact appendThen_eq_ok.mpr ⟨hlen, rfl⟩

/-- An append, a read of the announced length, and what follows them: so ASM_OPTLEN and ASM_BODY go on. -/
theorem appendThenTotal_withResult {k : State → Nat → Except Fault State}
    (hk : ∀ u n, k u n = .ok t → k (u.withResult r) n = .ok (t.withResult r))
    (h : (s.appendByte b >>= fun u => u.readTotal >>= k u) = .ok t) :
    ((s.withResult r).appendByte b >>= fun u => u.readTotal >>= k u) = .ok (t.withResult r) := by
  obtain ⟨u, happend, h⟩ := bind_eq_ok.mp h
  obtain ⟨n, htotal, h⟩ := bind_eq_ok.mp h
  exact bind_eq_ok.mpr ⟨_, appendByte_withResult r happend, bind_eq_ok.mpr ⟨n, htotal, hk u n h⟩⟩

theorem dropOldest_withResult (s : State) : (s.withResult r).dropOldest = s.dropOldest.withResult r := by
  have hchan : (s.withResult r).chan = s.chan := rfl
  unfold State.dropOldest
  rw [hchan]
  split <;> rfl

theorem deliver_withResult {frame : RawFrame} (h : s.deliver frame = .ok t) :
    (s.withResult r).deliver frame = .ok (t.withResult r) := by
  obtain ⟨hroom, rfl⟩ | ⟨hfull, hpolicy, rfl⟩ := deliver_cases h
  · exact deliver_of_room (s := s.withResult r) frame hroom
  · have hfull' : (s.withResult r).chanHasRoom = false := hfull
    have hpolicy' : (s.withResult r).cfg.fifoPolicy = .dropOldest := hpolicy
    rw [State.deliver, hfull', hpolicy', dropOldest_withResult]
    rfl

theorem emitFrame_withResult (h : s.emitFrame = .ok t) : (s.withResult r).emitFrame = .ok (t.withResult r) := by
  obtain ⟨u, hdeliver, rfl⟩ := map_eq_ok.mp h
  exact map_eq_ok.mpr ⟨_, deliver_withResult r hdeliver, rfl⟩

/-- The assembler's operations neither read nor write the last result. -/
theorem exec_asmOperation_withResult {st : AsmSt} (h : exec (asmOperation st b) s = .next t) :
    exec (asmOperation st b) (s.withResult r) = .next (t.withResult r) := by
  cases st with
  | waitSync =>
    by_cases hb : b = 0x55
    · subst hb
      have happend := outcomeOf_eq_next.mp ((execAsmWaitSync_sync s).symm.trans h)
      exact (execAsmWaitSync_sync _).trans (outcomeOf_eq_next.mpr (appendThen_withResult r happend))
    · cases (execAsmWaitSync_discard s hb).symm.trans h
      exact execAsmWaitSync_discard _ hb
  | readLenHi | readLenLo => exact outcomeOf_eq_next.mpr (appendThen_withResult r (outcomeOf_eq_next.mp h))
  | readOptLen =>
    refine outcomeOf_eq_next.mpr (appendThenTotal_withResult r (fun u n hk => ?_) (outcomeOf_eq_next.mp h))
    split_ifs at hk ⊢ <;> cases hk <;> rfl
  | readBody =>
    refine outcomeOf_eq_next.mpr (appendThenTotal_withResult r (fun u n hk => ?_) (outcomeOf_eq_next.mp h))
    have hlen : (u.withResult r).asmLen = u.asmLen := rfl
    rw [hlen]
    split_ifs at hk ⊢
    · exact emitFrame_withResult r hk
    · cases hk
      rfl

/-- PIPE_STEP neither reads nor writes the last result. -/
theorem exec_pipeStep_withResult (h : exec .pipeStep s = .next t) :
    exec .pipeStep (s.withResult r) = .next (t.withResult r) := by
  cases hc : s.chan with
  | nil =>
    cases (exec_pipeStep_nil hc).symm.trans h
    exact exec_pipeStep_nil hc
  | cons frame rest =>
    obtain ⟨record, hrecord⟩ := pipeFrame_emits_by_cfg s.cfg frame
    have hexec := exec_pipeStep_cons hc
    rw [hrecord { s with chan := rest } rfl] at hexec
    cases hexec.symm.trans h
    exact (exec_pipeStep_cons (s := s.withResult r) hc).trans (congrArg _ (hrecord _ rfl))

end

/-! ### The last result in a step (R286) -/

/-- A step that is no call carries the last result along unread. -/
theorem step_withResult {s t : State} (r : Option Result)
    (hnone : ∀ turn ts, s.turns = turn :: ts → turn.isCall = false) (h : step s = .next t) :
    step (s.withResult r) = .next (t.withResult r) := by
  have hsame := fetch_withResult s r
  obtain ⟨u, -, hf | ⟨-, hf⟩ | ⟨-, -, b, hf⟩ | ⟨-, -, hf⟩ | ⟨c, text, bytes, ts, ht, -⟩⟩ := fetch_cases s
  · cases (step_of_settled hf).symm.trans h
    exact step_of_settled (hsame.trans (congrArg _ hf))
  · cases (step_of_settled hf).symm.trans h
    exact step_of_settled (hsame.trans (congrArg _ hf))
  · have hexec := (step_of_run_ok hf (decode_asmTxn s.asmSt b)).symm.trans h
    exact (step_of_run_ok (hsame.trans (congrArg _ hf)) (decode_asmTxn s.asmSt b)).trans
      (exec_asmOperation_withResult r hexec)
  · have hexec := (step_of_run_ok hf decode_pipeAgent).symm.trans h
    exact (step_of_run_ok (hsame.trans (congrArg _ hf)) decode_pipeAgent).trans (exec_pipeStep_withResult r hexec)
  · cases hnone _ ts ht

/-- A call overwrites the last result, with an answer that does not read it, or is refused whatever it is. -/
theorem step_call_withResult {s : State} (r : Option Result) {c : CallSlot} {text : String} {bytes : List Byte}
    {ts : List Turn} (ht : s.turns = .call c text bytes :: ts) : step (s.withResult r) = step s := by
  have hf := fetch_call ht
  have hf' := fetch_call (s := s.withResult r) ht
  cases hd : decode ⟨.call c, text, bytes⟩ with
  | error e => rw [step_of_run_error hf hd, step_of_run_error hf' hd]
  | ok i =>
    obtain ⟨result, hr⟩ := exec_eq_answer_of_call (decode_call_slot hd)
    rw [step_of_run_ok hf hd, step_of_run_ok hf' hd, hr, hr]
    rfl

/-- Settles O57: `step_withResult` for the turns that are no call, `step_call_withResult` for the calls. -/
theorem lastResultIsNeverRead : Obligations.LastResultIsNeverRead := by
  refine ⟨fun s t r hnone h => step_withResult r hnone h, fun s r turn ts ht hcall => ?_⟩
  cases turn with
  | call c text bytes => exact step_call_withResult r ht
  | reset | byte | asm | pipe => cases hcall

end Sys2Proof.Machine
end
